-- ==== Sys2Proof/Word.lean ====
section
/-! DEFINITION. The bit widths SDPM-CORE uses (00_scope.md R8). -/

namespace Sys2Proof

/-- One bit: a one-bit register, a port of width 1, a sensor value. -/
abbrev Bit := BitVec 1

/-- A byte, bits 7 (most significant) down to 0. -/
abbrev Byte := BitVec 8

/-- The 16-bit frame word `W = register ++ value` (R8, R60). -/
abbrev FrameWord := BitVec 16

end Sys2Proof
end

