-- ==== Sys2Proof/Config.lean ====
section
/-! DEFINITION. The configuration record CFG (00_scope.md R7) and the free draws of the environment
(60_exceptions.md R171, R172). The configuration is a field of State, so that a claim about every state is a claim
about every CFG (log 1); `Cfg.default` is the CFG of State.reset only (log 2). -/

namespace Sys2Proof

/-- A pattern: exactly 8 bytes, byte `i` for row `i`, 1 = lit (20_memory.md R41). -/
structure Pattern where
  row0 : Byte
  row1 : Byte
  row2 : Byte
  row3 : Byte
  row4 : Byte
  row5 : Byte
  row6 : Byte
  row7 : Byte
  deriving DecidableEq, Repr, Inhabited

/-- One cell of STEPTAB (R40, R42): the pattern id `STEP_PAT[s]` and `DWELL_CYCLES[s]`. -/
structure Step where
  pat   : Nat
  dwell : Nat
  deriving DecidableEq, Repr, Inhabited

/-- The parameters of R7. `REG_ROW(i) = i` is no field: R7 fixes it (`regRow` in Decode.lean).
`N_PAT` and `N_STEPS` are the lengths of `patterns` and `steps`. -/
structure Cfg where
  regNoop       : Byte
  regDecode     : Byte
  regIntensity  : Byte
  regScanlimit  : Byte
  regShutdown   : Byte
  regDisptest   : Byte
  valStandby    : Byte
  valNormal     : Byte
  valTestOff    : Byte
  valDecodeRaw  : Byte
  valScanAll8   : Byte
  valIntensity  : Byte
  patterns      : List Pattern
  steps         : List Step
  pollCycles    : Nat
  msgAlert      : String
  msgMonitoring : String
  sdX           : Nat
  sdY           : Nat
  tLead         : Nat
  tHalf         : Nat
  tTrail        : Nat
  tGap          : Nat
  prevReset     : Bit
  deriving DecidableEq, Repr

/-- The environment's answer to one frame (R171): at which cycle of the frame (value of PH) `bus_err` is first sampled
1, if ever. The event-level answer `fail` is `errAt p` with `p` inside the chip-select window (40_framer.md R102); DEDUCED,
safe (log 4). -/
inductive BusDraw where
  | quiet
  | errAt (ph : Nat)
  deriving DecidableEq, Repr, Inhabited

/-- The environment's answer to one sensor read (R172): `err = 1` is "not ok", and then `val` is meaningless. -/
structure SensorDraw where
  err : Bit
  val : Bit
  deriving DecidableEq, Repr, Inhabited

/-- Free value (log 3): the `n`-th bus draw the environment has not fixed in `Env.bus`. Nothing constrains it. -/
opaque Config.freeBusDraw : Nat → BusDraw

/-- Free value (log 3): the `n`-th sensor draw the environment has not fixed in `Env.sensor`. Nothing constrains it. -/
opaque Config.freeSensorDraw : Nat → SensorDraw

/-- The illustrative library of 41_matrix_ops.md R118: warning-border, exclamation, relaxed-face. DESIGN CHOICE (log 2). -/
def Pattern.warn : Pattern := ⟨0xFF, 0x81, 0x81, 0x81, 0x81, 0x81, 0x81, 0xFF⟩
def Pattern.excl : Pattern := ⟨0x18, 0x18, 0x18, 0x18, 0x18, 0x00, 0x18, 0x00⟩
def Pattern.relax : Pattern := ⟨0x3C, 0x42, 0xA5, 0x81, 0xA5, 0x99, 0x42, 0x3C⟩

/-- The default column of R7. Its OPEN rows take the values of 95_test_vectors.md, the display texts and origin are this
model's. DESIGN CHOICE, unsafe for a claim that rests on one (log 2): no statement does. -/
def Cfg.default : Cfg where
  regNoop := 0x00
  regDecode := 0x09
  regIntensity := 0x0A
  regScanlimit := 0x0B
  regShutdown := 0x0C
  regDisptest := 0x0F
  valStandby := 0x00
  valNormal := 0x01
  valTestOff := 0x00
  valDecodeRaw := 0x00
  valScanAll8 := 0x07
  valIntensity := 0x08
  patterns := [Pattern.warn, Pattern.excl, Pattern.relax]
  steps := [⟨0, 2⟩, ⟨1, 2⟩, ⟨0, 2⟩, ⟨1, 2⟩, ⟨2, 2⟩]
  pollCycles := 3
  msgAlert := "alert"
  msgMonitoring := "monitoring"
  sdX := 0
  sdY := 0
  tLead := 1
  tHalf := 1
  tTrail := 1
  tGap := 1
  prevReset := 1

end Sys2Proof
end

