-- ==== Sys2Proof/Syntax.lean ====
section
/-! DEFINITION. The 29 rows of spec/opcode_table.json (30_encoding.md R64, R69). Operands as R69 and the command map give them. -/

namespace Sys2Proof

/-- The two status-display messages (42_monitor.md R133). -/
inductive Msg where
  | monitoring
  | alert
  deriving DecidableEq, Repr, Inhabited

/-- The operand of `SHOW` (30_encoding.md R69: "pattern id or 8 bytes"). -/
inductive ShowOperand where
  | id (p : Nat)
  | bytes (p : Pattern)
  deriving DecidableEq, Repr

/-- One constructor per row of the table. -/
inductive Instr where
  -- the 14 frame commands (R64): the operand is the value byte
  | noop (v : Byte)
  | row1 (v : Byte)
  | row2 (v : Byte)
  | row3 (v : Byte)
  | row4 (v : Byte)
  | row5 (v : Byte)
  | row6 (v : Byte)
  | row7 (v : Byte)
  | row8 (v : Byte)
  | decode (v : Byte)
  | intensity (v : Byte)
  | scanlimit (v : Byte)
  | shutdown (v : Byte)
  | disptest (v : Byte)
  -- the operations of R69
  | wreg (r : Byte) (v : Byte)
  | clear
  | showPattern (o : ShowOperand)
  | initialise
  | alert
  | boot
  | status (m : Msg)
  | indSet
  | indClr
  | sample
  | dwell (s : Nat)
  | tend
  | sleep
  | tick
  | iter
  deriving DecidableEq, Repr

end Sys2Proof
end

