-- ==== Sys2Proof/WellFormed.lean ====
section
/-! DEFINITION. Which CFG and which instructions are well formed (00_scope.md R7, 93_implementation_defined.md U12).
"A pattern not 8 bytes" and `REG_ROW(i) != i` cannot be written down (Config.lean), so they need no check. -/

namespace Sys2Proof

/-- The 14 addresses of the enumeration (10_state.md R22): the row registers are 1 to 8. -/
def Cfg.addresses (c : Cfg) : List Byte :=
  [c.regNoop, 1, 2, 3, 4, 5, 6, 7, 8, c.regDecode, c.regIntensity, c.regScanlimit, c.regShutdown, c.regDisptest]

/-- U12: no two functions share one address. -/
def Cfg.addressesDistinct (c : Cfg) : Bool := decide c.addresses.Nodup

/-- R7: `VAL_SHUTDOWN_NORMAL` differs from `VAL_SHUTDOWN_STANDBY`. -/
def Cfg.shutdownValuesDiffer (c : Cfg) : Bool := decide (c.valNormal ≠ c.valStandby)

/-- R7: `N_PAT >= 1`. -/
def Cfg.hasPattern (c : Cfg) : Bool := decide (1 ≤ c.patterns.length)

/-- R7: `N_STEPS >= 1`. -/
def Cfg.hasStep (c : Cfg) : Bool := decide (1 ≤ c.steps.length)

/-- R7: `STEP_PAT[s] < N_PAT`. -/
def Cfg.stepPatsInRange (c : Cfg) : Bool := c.steps.all fun st => decide (st.pat < c.patterns.length)

/-- R7: `DWELL_CYCLES[s] >= 1` and `POLL_CYCLES >= 1`. -/
def Cfg.waitsPositive (c : Cfg) : Bool := (c.steps.all fun st => decide (1 ≤ st.dwell)) && decide (1 ≤ c.pollCycles)

/-- R7: `T_LEAD`, `T_HALF`, `T_TRAIL`, `T_GAP`, each `>= 1`. -/
def Cfg.frameTimesPositive (c : Cfg) : Bool :=
  decide (1 ≤ c.tLead) && decide (1 ≤ c.tHalf) && decide (1 ≤ c.tTrail) && decide (1 ≤ c.tGap)

/-- A CFG a model accepts (U12). -/
def Cfg.wf (c : Cfg) : Bool :=
  c.frameTimesPositive && c.shutdownValuesDiffer && c.hasPattern && c.hasStep && c.stepPatsInRange && c.waitsPositive &&
    c.addressesDistinct

/-- A pattern id is below `N_PAT` (20_memory.md R41). -/
def ShowOperand.wf (c : Cfg) : ShowOperand → Bool
  | .id p => decide (p < c.patterns.length)
  | .bytes _ => true

/-- Operand ranges: a pattern id `p < N_PAT` (20_memory.md R41) and the step index `s < N_STEPS` of `dwell` (42_monitor.md R134). -/
def Instr.wf (c : Cfg) : Instr → Bool
  | .noop _ => true
  | .row1 _ => true
  | .row2 _ => true
  | .row3 _ => true
  | .row4 _ => true
  | .row5 _ => true
  | .row6 _ => true
  | .row7 _ => true
  | .row8 _ => true
  | .decode _ => true
  | .intensity _ => true
  | .scanlimit _ => true
  | .shutdown _ => true
  | .disptest _ => true
  | .wreg _ _ => true
  | .clear => true
  | .showPattern o => o.wf c
  | .initialise => true
  | .alert => true
  | .boot => true
  | .status _ => true
  | .indSet => true
  | .indClr => true
  | .sample => true
  | .dwell s => decide (s < c.steps.length)
  | .tend => true
  | .sleep => true
  | .tick => true
  | .iter => true

end Sys2Proof
end

