-- ==== Sys2Proof/Decode.lean ====
section
/-! DEFINITION. The constant tables, the frame word, the decoder and the encoder (20_memory.md R40 to R42, 30_encoding.md
R60 to R73, 41_matrix_ops.md R111). What the table calls an encoding is an `Image`: the frame words an operation puts on the bus
or the bits it has on the block's own ports (R73). Rows of format NONE have no image and nothing decodes to them. -/

namespace Sys2Proof

/-! ### Frame word and constant tables -/

/-- `register ++ value` (R60). -/
def frameWord (r v : Byte) : FrameWord := r ++ v

/-- `W[15:8]` (R61). -/
def frameReg (w : FrameWord) : Byte := w.extractLsb' 8 8

/-- `W[7:0]` (R61). -/
def frameVal (w : FrameWord) : Byte := w.extractLsb' 0 8

/-- The rows of a pattern in increasing order. -/
def rows : List (Fin 8) := [0, 1, 2, 3, 4, 5, 6, 7]

/-- `REG_ROW(row + 1) = row + 1` (R63, R110): the address of row register `row`. -/
def regRow (r : Fin 8) : Byte := BitVec.ofNat 8 (r.val + 1)

/-- Byte `r` of a pattern (R41). -/
def Pattern.row (p : Pattern) : Fin 8 → Byte
  | 0 => p.row0
  | 1 => p.row1
  | 2 => p.row2
  | 3 => p.row3
  | 4 => p.row4
  | 5 => p.row5
  | 6 => p.row6
  | 7 => p.row7

/-- Eight bytes `0x00`. -/
def Pattern.blank : Pattern := ⟨0, 0, 0, 0, 0, 0, 0, 0⟩

/-- The pattern an operand of `SHOW` names (30_encoding.md R69, 20_memory.md R41); none for an id that is no pattern. -/
def Cfg.shownPattern (c : Cfg) : ShowOperand → Option Pattern
  | .id p => c.patterns[p]?
  | .bytes p => some p

/-- `N_STEPS` (R7). -/
def Cfg.nSteps (c : Cfg) : Nat := c.steps.length

/-- The cell `s` of STEPTAB (R42). Out of range (no operation forms such an index, R41) it reads as a one-cycle step of pattern 0. -/
def Cfg.stepCell (c : Cfg) (s : Nat) : Step := c.steps.getD s ⟨0, 1⟩

/-- `PATTERN[STEP_PAT[s]]` (R41, R42). -/
def Cfg.stepPattern (c : Cfg) (s : Nat) : Pattern := c.patterns.getD (c.stepCell s).pat Pattern.blank

/-- `DWELL_CYCLES[s]` (R42). -/
def Cfg.dwellCycles (c : Cfg) (s : Nat) : Nat := (c.stepCell s).dwell

/-- `MemRead(INITTAB, k)`: the six configuration writes in their fixed order (R111). -/
def Cfg.initPair (c : Cfg) : Fin 6 → Byte × Byte
  | 0 => (c.regShutdown, c.valStandby)
  | 1 => (c.regDisptest, c.valTestOff)
  | 2 => (c.regDecode, c.valDecodeRaw)
  | 3 => (c.regScanlimit, c.valScanAll8)
  | 4 => (c.regIntensity, c.valIntensity)
  | 5 => (c.regShutdown, c.valNormal)

/-- The indices of INITTAB in increasing order. -/
def initIndices : List (Fin 6) := [0, 1, 2, 3, 4, 5]

/-! ### Wire images of the composite operations (R71) -/

/-- `SHOW p`: `0x01aa … 0x08hh`. -/
def showWords (p : Pattern) : List FrameWord := rows.map fun r => frameWord (regRow r) (p.row r)

/-- `CLEAR`: `0x0100 … 0x0800`. -/
def clearWords : List FrameWord := rows.map fun r => frameWord (regRow r) 0

/-- `INIT`: the six configuration words, then the image of `CLEAR`. -/
def Cfg.initWords (c : Cfg) : List FrameWord :=
  (initIndices.map fun k => frameWord (c.initPair k).1 (c.initPair k).2) ++ clearWords

/-- `ALERT`: the image of each step's `SHOW`, then the image of `CLEAR` (R130, R73). -/
def Cfg.alertWords (c : Cfg) : List FrameWord :=
  ((List.range c.nSteps).flatMap fun s => showWords (c.stepPattern s)) ++ clearWords

/-! ### Decoder -/

/-- What an operation has on the bus or on the block's own ports (R73). -/
inductive Image where
  | frames (ws : List FrameWord)            -- FRAME16 and OPSEQn: frame words in emission order
  | indOut (b : Bit)                        -- PORT1: `ind_out` after the operation
  | sdPort (valid msg : Bit)                -- PORT2: `sd_valid`, `sd_msg`
  | sensorPort (err val : Bit)              -- PORT2IN: `sensor_err`, `sensor_in`
  deriving DecidableEq, Repr

/-- Why an image stands for no operation. -/
inductive DecodeError where
  | brokenFrame      -- not a whole number of two-byte frames (R68, R72)
  | notAnImage       -- frames that are the image of no operation of the table
  | noRequest        -- `sd_valid = 0`: no status-display request (R157)
  deriving DecidableEq, Repr

/-- R64: a frame's command is selected by its register byte alone, all 8 bits of it (R61). A register byte outside the enumeration is a
reserved frame, which only `writeRegister` sends (R66); DEDUCED, safe (log 8). -/
def decodeCommand (c : Cfg) (r v : Byte) : Instr :=
  if r = c.regNoop then .noop v
  else if r = 1 then .row1 v
  else if r = 2 then .row2 v
  else if r = 3 then .row3 v
  else if r = 4 then .row4 v
  else if r = 5 then .row5 v
  else if r = 6 then .row6 v
  else if r = 7 then .row7 v
  else if r = 8 then .row8 v
  else if r = c.regDecode then .decode v
  else if r = c.regIntensity then .intensity v
  else if r = c.regScanlimit then .scanlimit v
  else if r = c.regShutdown then .shutdown v
  else if r = c.regDisptest then .disptest v
  else .wreg r v

/-- The command of a frame word (R60, R64). -/
def decodeFrame (c : Cfg) (w : FrameWord) : Instr := decodeCommand c (frameReg w) (frameVal w)

/-- The name of the operation that sends the rows of `p` (log 8). -/
def namePattern (p : Pattern) : Instr := if p = Pattern.blank then .clear else .showPattern (.bytes p)

/-- Eight frames to the row registers in row order are `SHOW` of their value bytes, and `CLEAR` where all of those are 0x00. -/
def decodeRows (ws : List FrameWord) : Except DecodeError Instr :=
  match ws with
  | [a, b, c, d, e, f, g, h] =>
    let p : Pattern :=
      ⟨frameVal a, frameVal b, frameVal c, frameVal d, frameVal e, frameVal f, frameVal g, frameVal h⟩
    if ws = showWords p then .ok (namePattern p) else .error .notAnImage
  | _ => .error .notAnImage

/-- The operation whose frames these are (R64, R71, R73). -/
def decodeFrames (c : Cfg) (ws : List FrameWord) : Except DecodeError Instr :=
  match ws with
  | [w] => .ok (decodeFrame c w)
  | _ =>
    if ws = c.initWords then .ok .initialise
    else if ws = c.alertWords then .ok .alert
    else decodeRows ws

/-- The decoder, total: every image is an operation or is rejected by name. -/
def decodeImage (c : Cfg) : Image → Except DecodeError Instr
  | .frames ws => decodeFrames c ws
  | .indOut b => .ok (if b = 1 then .indSet else .indClr)
  | .sdPort valid msg => if valid = 1 then .ok (.status (if msg = 1 then .alert else .monitoring)) else .error .noRequest
  | .sensorPort _ _ => .ok .sample

/-- Bytes in the order they are transmitted, two a frame, register first (R44); `none` where the last frame is short. -/
def framesOfBytes : List Byte → Option (List FrameWord)
  | [] => some []
  | [_] => none
  | r :: v :: rest => (framesOfBytes rest).map (frameWord r v :: ·)

/-- Decoding the bytes of a bus image. -/
def decodeBytes (c : Cfg) (bs : List Byte) : Except DecodeError Instr :=
  match framesOfBytes bs with
  | none => .error .brokenFrame
  | some ws => decodeFrames c ws

/-! ### Encoder -/

/-- The image of an operation, from the formats of R73 and the images of R71; none for the rows of format NONE and for
`SAMPLE`, whose port bits are inputs it reads and not operands it has. -/
def encode (c : Cfg) : Instr → Option Image
  | .noop v => some (.frames [frameWord c.regNoop v])
  | .row1 v => some (.frames [frameWord 1 v])
  | .row2 v => some (.frames [frameWord 2 v])
  | .row3 v => some (.frames [frameWord 3 v])
  | .row4 v => some (.frames [frameWord 4 v])
  | .row5 v => some (.frames [frameWord 5 v])
  | .row6 v => some (.frames [frameWord 6 v])
  | .row7 v => some (.frames [frameWord 7 v])
  | .row8 v => some (.frames [frameWord 8 v])
  | .decode v => some (.frames [frameWord c.regDecode v])
  | .intensity v => some (.frames [frameWord c.regIntensity v])
  | .scanlimit v => some (.frames [frameWord c.regScanlimit v])
  | .shutdown v => some (.frames [frameWord c.regShutdown v])
  | .disptest v => some (.frames [frameWord c.regDisptest v])
  | .wreg r v => some (.frames [frameWord r v])
  | .clear => some (.frames clearWords)
  | .showPattern o => (c.shownPattern o).map fun p => .frames (showWords p)
  | .initialise => some (.frames c.initWords)
  | .alert => some (.frames c.alertWords)
  | .boot => some (.frames c.initWords)
  | .status m => some (.sdPort 1 (match m with | .alert => 1 | .monitoring => 0))
  | .indSet => some (.indOut 1)
  | .indClr => some (.indOut 0)
  | .sample => none
  | .dwell _ => none
  | .tend => none
  | .sleep => none
  | .tick => none
  | .iter => none

/-- The name the decoder gives an operation's image where the table has one image under two names (log 8): `WREG` with an
enumeration address is that command, `SHOW` of a pattern id is `SHOW` of its bytes, `SHOW` of eight zero bytes is `CLEAR`, `BOOT` has the bus image of `INIT`. -/
def canonical (c : Cfg) : Instr → Instr
  | .noop v => .noop v
  | .row1 v => .row1 v
  | .row2 v => .row2 v
  | .row3 v => .row3 v
  | .row4 v => .row4 v
  | .row5 v => .row5 v
  | .row6 v => .row6 v
  | .row7 v => .row7 v
  | .row8 v => .row8 v
  | .decode v => .decode v
  | .intensity v => .intensity v
  | .scanlimit v => .scanlimit v
  | .shutdown v => .shutdown v
  | .disptest v => .disptest v
  | .wreg r v => decodeFrame c (frameWord r v)
  | .clear => .clear
  | .showPattern o => ((c.shownPattern o).map namePattern).getD (.showPattern o)
  | .initialise => .initialise
  | .alert => .alert
  | .boot => .initialise
  | .status m => .status m
  | .indSet => .indSet
  | .indClr => .indClr
  | .sample => .sample
  | .dwell s => .dwell s
  | .tend => .tend
  | .sleep => .sleep
  | .tick => .tick
  | .iter => .iter

/-! ### The host's numbering of table words -/

/-- Frame word `k` of a number that holds one frame word per 16 bits, the first in bits 15..0. -/
def tableFrame (w k : Nat) : FrameWord := BitVec.ofNat 16 (w >>> (16 * k))

/-- The bytes the hardware transmits for `n` such frame words (R44, R60): each word's register byte first. -/
def tableBytes (n w : Nat) : List Byte :=
  (List.range n).flatMap fun k => [frameReg (tableFrame w k), frameVal (tableFrame w k)]

/-- The instruction the decoder reads from a table row's bits, with the default map of the table (R64). A number of bits that is
no whole number of frames (a PORT or NONE row) is no bus image. -/
def decodeTableWord (nbits w : Nat) : Option Instr :=
  if nbits % 16 = 0 then (decodeBytes Cfg.default (tableBytes (nbits / 16) w)).toOption else none

end Sys2Proof
end

