-- ==== Sys2Proof/Machine/State.lean ====
section
/-! DEFINITION. The state of SDPM-CORE as plain data (10_state.md R10, R24, R25, R27), the reasons a step can stop, and the
state after reset. -/

namespace Sys2Proof.Machine

/-- MSTATE (10_state.md R15): 0 = IDLE, 1 = ALERTED. -/
inductive MState where
  | idle
  | alerted
  deriving DecidableEq, Repr

/-- POS, the sequencer position (10_state.md R17). -/
inductive Pos where
  | bStart
  | bInit (k : Fin 6)
  | bClear (r : Fin 8)
  | bStatus
  | sample
  | aIndOn
  | aStatus
  | aShow (s : Nat) (r : Fin 8)
  | aDwell (s : Nat)
  | aIndOff
  | aClear (r : Fin 8)
  | aRestore
  | tEnd
  | sleep
  deriving DecidableEq, Repr

/-- The two exceptions (60_exceptions.md R170): `BusFault` and `SensorFault`. -/
inductive Cause where
  | bus
  | sensor
  deriving DecidableEq, Repr

/-- The event alphabet (00_scope.md R9). -/
inductive Event where
  | rd (v : Bit)
  | cs (b : Bit)
  | tx (b : Byte)
  | ind (b : Bit)
  | sd (m : Msg)
  | dwell (s : Nat)
  | sleep
  | fault (c : Cause)
  deriving DecidableEq, Repr

/-- DRV (10_state.md R24), the ghost image of the driver chip's registers: the known bytes, addresses strictly rising.
An address that is not listed holds ⊥. -/
abbrev Memory := List Host.Cell

/-- The environment's draws (43_loop.md R160): those already fixed, oldest first, and how many free draws
(`Config.freeBusDraw`, `Config.freeSensorDraw`) have been taken after them. The model's own fields (log 3). -/
structure Env where
  bus        : List BusDraw
  sensor     : List SensorDraw
  busFree    : Nat
  sensorFree : Nat
  deriving DecidableEq, Repr

/-- The state. The nine registers of R10, the ghosts DRV (R24) and TRACE (R25), the level of the port `rst` (R20), the
environment's draws, and the configuration CFG, which no step changes (R26, log 1). `ph` is a number whose width W_PH
(R18) depends on CFG (log 12). -/
structure State where
  cfg    : Cfg
  prev   : Bit
  cur    : Bit
  ind    : Bit
  mstate : MState
  w      : FrameWord
  pos    : Pos
  ph     : Nat
  fault  : Bit
  fcode  : BitVec 2
  drv    : Memory
  trace  : List Event
  rst    : Bit
  env    : Env
  deriving DecidableEq, Repr

/-- Faults: the machine is in a state the spec excludes. The spec's own failures are no faults of the model: their entry is a
next state (60_exceptions.md R174). -/
inductive Fault where
  /-- Raised by `step` at a position whose step index is not below N_STEPS (93_implementation_defined.md U13: unreachable). Safe (log 16). -/
  | badPosition
  deriving DecidableEq, Repr

/-- Refusals. -/
inductive Refusal where
  /-- Raised by an arm of `exec` that has no meaning yet: no arm is left so. Safe. -/
  | notModelled (mnemonic : String)
  /-- Raised by every meaning, by `step`, `cstep`, `setCfg` and `launch` when CFG breaks a constraint of 00_scope.md R7 (93_implementation_defined.md U12:
  "refuse … no step is defined"). Safe (log 16). -/
  | badConfig
  /-- Raised by `execDwell` when the step index is not below N_STEPS (42_monitor.md R134). Safe (log 16). -/
  | stepOutOfRange
  /-- Raised by `execShow` when the pattern id is not below N_PAT (20_memory.md R41: "any other index is not formed by any operation"). Safe
  (log 16). -/
  | patternOutOfRange
  /-- Raised by `step` inside an operation (`ph ≠ 0`, not halted): the event level has no such state (10_state.md R18) and no
  step reaches one. The cycle level's `cstep` runs there. Safe (log 6). -/
  | insidePosition
  deriving DecidableEq, Repr

/-- The state right after the first reset after power-on (R27; DRV is ⊥ everywhere at power-on, R24(a)). `rst` is low again, no draw is
fixed yet, and CFG is the default (logs 2, 3, 5). -/
def State.reset : State where
  cfg := Cfg.default
  prev := Cfg.default.prevReset
  cur := 0
  ind := 0
  mstate := .idle
  w := 0
  pos := .bStart
  ph := 0
  fault := 0
  fcode := 0
  drv := []
  trace := []
  rst := 0
  env := ⟨[], [], 0, 0⟩

end Sys2Proof.Machine
end

