-- ==== Sys2Proof/Machine/Flags.lean ====
section
/-! DEFINITION. The edge predicate (42_monitor.md R126) and the failure codes (10_state.md R19, 60_exceptions.md R170). SDPM-CORE has
no condition codes. -/

namespace Sys2Proof.Machine

/-- `edge(cur, prev) = (cur = 1) and (prev = 0)` (R126). -/
def edge (cur prev : Bit) : Bool := decide (cur = 1 ∧ prev = 0)

/-- FCODE of an exception (R170): 1 = BUS, 2 = SENSOR. -/
def Cause.code : Cause → BitVec 2
  | .bus => 1
  | .sensor => 2

/-- The bit that MSTATE is (R10): 0 = IDLE, 1 = ALERTED. -/
def MState.bit : MState → Bit
  | .idle => 0
  | .alerted => 1

end Sys2Proof.Machine
end

