-- ==== Sys2Proof/Machine/Operands.lean ====
section
/-! DEFINITION. Positions and times: which positions transmit a frame and which, how long each lasts, what follows it
(10_state.md R17, R18, 40_framer.md R104, 43_loop.md R154). -/

namespace Sys2Proof.Machine

/-- First cycle of a frame position with chip-select high again: `T_LEAD + 32*T_HALF + T_TRAIL` (40_framer.md R100, R101). -/
def csEnd (c : Cfg) : Nat := c.tLead + 32 * c.tHalf + c.tTrail

/-- The value PH takes at the edge where `sclk` rises for the `8 * n`-th time, that is where byte `n` (1 or 2) of the frame is complete
(40_framer.md R100, R101). -/
def byteEnd (c : Cfg) (n : Nat) : Nat := c.tLead + (16 * n - 1) * c.tHalf

/-- `LEN_FRAME` (40_framer.md R104). -/
def lenFrame (c : Cfg) : Nat := csEnd c + c.tGap

/-- The frame word a position transmits, for the frame positions (43_loop.md R154). -/
def word (c : Cfg) : Pos → Option FrameWord
  | .bStart => none
  | .bInit k => some (frameWord (c.initPair k).1 (c.initPair k).2)
  | .bClear r => some (frameWord (regRow r) 0)
  | .bStatus => none
  | .sample => none
  | .aIndOn => none
  | .aStatus => none
  | .aShow s r => some (frameWord (regRow r) ((c.stepPattern s).row r))
  | .aDwell _ => none
  | .aIndOff => none
  | .aClear r => some (frameWord (regRow r) 0)
  | .aRestore => none
  | .tEnd => none
  | .sleep => none

/-- The frame positions (R17): each transmits exactly one frame. -/
def Pos.isFrame : Pos → Bool
  | .bInit _ => true
  | .bClear _ => true
  | .aShow _ _ => true
  | .aClear _ => true
  | .bStart => false
  | .bStatus => false
  | .sample => false
  | .aIndOn => false
  | .aStatus => false
  | .aDwell _ => false
  | .aIndOff => false
  | .aRestore => false
  | .tEnd => false
  | .sleep => false

/-- The alert positions (R17): those whose name starts with `A_`. -/
def Pos.isAlert : Pos → Bool
  | .aIndOn => true
  | .aStatus => true
  | .aShow _ _ => true
  | .aDwell _ => true
  | .aIndOff => true
  | .aClear _ => true
  | .aRestore => true
  | .bStart => false
  | .bInit _ => false
  | .bClear _ => false
  | .bStatus => false
  | .sample => false
  | .tEnd => false
  | .sleep => false

/-- The positions of R17 for this CFG: step indices are below N_STEPS. -/
def Pos.wf (c : Cfg) : Pos → Bool
  | .aShow s _ => decide (s < c.nSteps)
  | .aDwell s => decide (s < c.nSteps)
  | .bStart => true
  | .bInit _ => true
  | .bClear _ => true
  | .bStatus => true
  | .sample => true
  | .aIndOn => true
  | .aStatus => true
  | .aIndOff => true
  | .aClear _ => true
  | .aRestore => true
  | .tEnd => true
  | .sleep => true

/-- `len(POS)` in clock cycles (43_loop.md R154, R156). -/
def len (c : Cfg) : Pos → Nat
  | .bStart => 1
  | .bInit _ => lenFrame c
  | .bClear _ => lenFrame c
  | .bStatus => 1
  | .sample => 1
  | .aIndOn => 1
  | .aStatus => 1
  | .aShow _ _ => lenFrame c
  | .aDwell s => c.dwellCycles s
  | .aIndOff => 1
  | .aClear _ => lenFrame c
  | .aRestore => 1
  | .tEnd => 1
  | .sleep => c.pollCycles

/-- The next row of eight, if there is one (the loops of R162 end by comparison with 7). -/
def nextRow (r : Fin 8) : Option (Fin 8) := if h : r.val + 1 < 8 then some ⟨r.val + 1, h⟩ else none

/-- The next row of INITTAB, if there is one (comparison with 5). -/
def nextInit (k : Fin 6) : Option (Fin 6) := if h : k.val + 1 < 6 then some ⟨k.val + 1, h⟩ else none

/-- The successor of `SAMPLE` (R154, R162): the block's one conditional transfer. -/
def sampleTarget (edge : Bool) : Pos := if edge then .aIndOn else .tEnd

/-- The "Successor" column of R154. Only `SAMPLE` looks at the edge. -/
def successor (c : Cfg) (edge : Bool) : Pos → Pos
  | .bStart => .bInit 0
  | .bInit k => match nextInit k with | some k' => .bInit k' | none => .bClear 0
  | .bClear r => match nextRow r with | some r' => .bClear r' | none => .bStatus
  | .bStatus => .sample
  | .sample => sampleTarget edge
  | .aIndOn => .aStatus
  | .aStatus => .aShow 0 0
  | .aShow s r => match nextRow r with | some r' => .aShow s r' | none => .aDwell s
  | .aDwell s => if s + 1 < c.nSteps then .aShow (s + 1) 0 else .aIndOff
  | .aIndOff => .aClear 0
  | .aClear r => match nextRow r with | some r' => .aClear r' | none => .aRestore
  | .aRestore => .tEnd
  | .tEnd => .sleep
  | .sleep => .sample

/-- `W_PH` (10_state.md R18): the least number of bits that holds the longest position's last PH. -/
def phWidth (c : Cfg) : Nat :=
  Nat.log2 ((c.steps.map Step.dwell).foldl max (max (lenFrame c) c.pollCycles) - 1) + 1

end Sys2Proof.Machine
end

