-- ==== Sys2Proof/Machine/Wave.lean ====
section
/-! DEFINITION. The ports (10_state.md R20), the bit-serial waveform (40_framer.md R100) and the wire decoder (30_encoding.md R72). -/

namespace Sys2Proof.Machine

/-- The three bus wires in one cycle. -/
structure Wires where
  csN  : Bit
  sclk : Bit
  mosi : Bit
  deriving DecidableEq, Repr

/-- The bus wires outside frame positions (R100). -/
def Wires.idle : Wires := ⟨1, 0, 0⟩

/-- `W[i]` as a wire level. -/
def wordBit (w : FrameWord) (i : Nat) : Bit := BitVec.ofBool (w.getLsbD i)

/-- `wave(W, PH)` (R100): lead-in, 16 bit periods most significant bit first, trail, gap. -/
def wave (c : Cfg) (w : FrameWord) (ph : Nat) : Wires :=
  if ph < c.tLead then ⟨0, 0, wordBit w 15⟩
  else if ph < c.tLead + 32 * c.tHalf then
    let q := ph - c.tLead
    let i := 15 - q / (2 * c.tHalf)
    ⟨0, if c.tHalf ≤ q % (2 * c.tHalf) then 1 else 0, wordBit w i⟩
  else if ph < csEnd c then ⟨0, 0, 0⟩
  else Wires.idle

/-- A block halted by BusFault. -/
def busHalted (s : State) : Bool := decide (s.fault = 1 ∧ s.fcode = 1)

/-- The bus wires of a state (R20, R100). A block halted by BusFault holds the wires of the cycle of the failure (40_framer.md R81,
60_exceptions.md R174, 70_reset_and_hazards.md R207). Where a stand-alone call fails at a POS that is no frame position, R20 read literally
would give `cs_n = 1` and R81 with vector V-F6 gives 0: the model takes 0. DEDUCED, unsafe (log 19). -/
def wires (s : State) : Wires := if s.pos.isFrame || busHalted s then wave s.cfg s.w s.ph else Wires.idle

/-- The output ports (R20). -/
structure Outputs where
  csN     : Bit
  sclk    : Bit
  mosi    : Bit
  indOut  : Bit
  sdValid : Bit
  sdMsg   : Bit
  fault   : Bit
  fcode   : BitVec 2
  deriving DecidableEq, Repr

/-- The bus wires among the outputs. -/
def Outputs.bus (o : Outputs) : Wires := ⟨o.csN, o.sclk, o.mosi⟩

/-- The outputs are a function of the state alone (R20, Moore). -/
def outputs (s : State) : Outputs where
  csN := (wires s).csN
  sclk := (wires s).sclk
  mosi := (wires s).mosi
  indOut := s.ind
  sdValid := if s.pos = .bStatus ∨ s.pos = .aStatus ∨ s.pos = .aRestore then 1 else 0
  sdMsg := if s.pos = .aStatus then 1 else 0
  fault := s.fault
  fcode := s.fcode

/-- The input ports sampled at one rising edge of `clk` (R20). -/
structure Pins where
  rst       : Bit
  sensorIn  : Bit
  sensorErr : Bit
  busErr    : Bit
  deriving DecidableEq, Repr

/-- The wire decoder's memory (R72): the wires of the cycle before, and the bits of the frame in progress. -/
structure WireState where
  last : Wires
  bits : List Bit
  deriving DecidableEq, Repr

/-- Before the first cycle: deselected, clock low. -/
def WireState.start : WireState := ⟨Wires.idle, []⟩

/-- The word of 16 bits in wire order, `W[15]` first (R62). -/
def wordOfBits (bits : List Bit) : FrameWord := bits.foldl (fun (w : FrameWord) b => (w <<< 1) ||| b.setWidth 16) 0

/-- A frame as the wire decoder finds it (R72). -/
inductive WireFrame where
  | whole (w : FrameWord)            -- exactly 16 bits between the fall and the rise of `cs_n`
  | broken (bits : List Bit)         -- fewer or more, `cs_n` has risen: a frame cut by reset
  | unfinished (bits : List Bit)     -- `cs_n` has not risen: a frame in progress, or a halted block's
  deriving DecidableEq, Repr

/-- A well-formed frame has exactly 16 bits (R72). -/
def frameOfBits (bits : List Bit) : WireFrame := if bits.length = 16 then .whole (wordOfBits bits) else .broken bits

/-- R72: a frame begins where `cs_n` falls and ends where it next rises, and its bits are `mosi` at the rising edges of `sclk` in
between, in time order. -/
def wireFrames (d : WireState) : List Wires → List WireFrame
  | [] => if d.last.csN = 0 then [.unfinished d.bits] else []
  | x :: xs =>
    if x.csN = 1 then
      if d.last.csN = 0 then frameOfBits d.bits :: wireFrames ⟨x, []⟩ xs else wireFrames ⟨x, []⟩ xs
    else
      let bits := if d.last.csN = 1 then [] else d.bits
      let bits := if d.last.sclk = 0 ∧ x.sclk = 1 then bits ++ [x.mosi] else bits
      wireFrames ⟨x, bits⟩ xs

/-- The bus events of a frame on the wires: R72's list for a whole one; of a cut one only the edges of `cs_n`, since partial bits are no events
(40_framer.md R103). DEDUCED, safe (log 21). -/
def WireFrame.events : WireFrame → List Event
  | .whole w => [.cs 0, .tx (frameReg w), .tx (frameVal w), .cs 1]
  | .broken _ => [.cs 0, .cs 1]
  | .unfinished _ => [.cs 0]

/-- The decoded event list of R72. -/
def wireEvents (d : WireState) (xs : List Wires) : List Event := (wireFrames d xs).flatMap WireFrame.events

/-- The wires of a whole frame position (R104). -/
def frameWires (c : Cfg) (w : FrameWord) : List Wires := (List.range (lenFrame c)).map (wave c w)

end Sys2Proof.Machine
end

