-- ==== Sys2Proof/Machine/Ops.lean ====
section
/-! DEFINITION. The shared operations: the ghost memory DRV, the trace, the draws, raising an exception (a halt) and reset, sending one
frame, moving to a position, and sequencing with halt. -/

namespace Sys2Proof.Machine

/-! ### DRV (10_state.md R24) -/

/-- `DRV[a]`; `none` is ⊥. -/
def Memory.read : Memory → Byte → Option Byte
  | [], _ => none
  | (b, x) :: m, a => if b = a.toNat then some x else Memory.read m a

/-- Insertion that keeps the addresses rising. -/
def Memory.insert : Memory → Nat → Byte → Memory
  | [], a, v => [(a, v)]
  | (b, x) :: m, a, v => if a < b then (a, v) :: (b, x) :: m else if a = b then (a, v) :: m else (b, x) :: Memory.insert m a v

/-- `DRV[a] <- v`. -/
def Memory.write (m : Memory) (a v : Byte) : Memory := Memory.insert m a.toNat v

/-- Every entry ⊥. -/
def Memory.unknown : Memory := []

/-- Strictly rising addresses from `lo` on, all of them 8-bit. -/
def Memory.risingFrom : Nat → Memory → Bool
  | _, [] => true
  | lo, (a, _) :: m => decide (lo ≤ a) && decide (a < 256) && Memory.risingFrom (a + 1) m

/-- The canonical form. -/
def Memory.wf (m : Memory) : Bool := Memory.risingFrom 0 m

/-- The effect of a completed frame on DRV, by its register byte (R24(b), (c), (d)): `REG_NOOP` nothing, another address of the
enumeration one entry, a reserved address every entry ⊥. -/
def chipLatch (c : Cfg) (r v : Byte) (m : Memory) : Memory :=
  if r = c.regNoop then m else if r ∈ c.addresses then Memory.write m r v else Memory.unknown

/-- The latch of a state's frame. -/
def latchWord (s : State) : Memory := chipLatch s.cfg (frameReg s.w) (frameVal s.w) s.drv

/-! ### Trace and draws -/

/-- `emit e` (00_scope.md R8). -/
def emit (e : Event) (s : State) : State := { s with trace := s.trace ++ [e] }

/-- `draw_bus()` (60_exceptions.md R171): the oldest fixed draw, else a free one. -/
def Env.drawBus (e : Env) : BusDraw × Env :=
  match e.bus with
  | d :: rest => (d, { e with bus := rest })
  | [] => (Config.freeBusDraw e.busFree, { e with busFree := e.busFree + 1 })

/-- `draw_sensor()` (60_exceptions.md R172). -/
def Env.drawSensor (e : Env) : SensorDraw × Env :=
  match e.sensor with
  | d :: rest => (d, { e with sensor := rest })
  | [] => (Config.freeSensorDraw e.sensorFree, { e with sensorFree := e.sensorFree + 1 })

/-- The cycle of the frame in which the bus failed, if the draw is `fail`: `bus_err` counts only while `cs_n = 0` (40_framer.md R102). -/
def failsAt (c : Cfg) : BusDraw → Option Nat
  | .quiet => none
  | .errAt p => if p < csEnd c then some p else none

/-! ### Exceptions and reset -/

/-- `raise` (60_exceptions.md R170, R174): FAULT, FCODE and the event. There is no handler, no vector and no saved state; the halt is that
nothing runs while FAULT = 1 (`whenRunning`, `step`, `cstep`). -/
def raise (c : Cause) (s : State) : State := { s with fault := 1, fcode := c.code, trace := s.trace ++ [.fault c] }

/-- `BusFault` in cycle `ph` of a frame (40_framer.md R81, R102): PH frozen there, every entry of DRV ⊥. POS is not touched, and chip-select
stays low at every POS (`wires`, log 19). -/
def raiseBus (ph : Nat) (s : State) : State := raise .bus { s with ph := ph, drv := Memory.unknown }

/-- A clock edge with `rst = 1` (70_reset_and_hazards.md R190, R27), the only way out of a halt (60_exceptions.md R176): every register
takes its reset value, TRACE is emptied, and DRV becomes ⊥ if chip-select was low (R192), else stays (10_state.md R24(f)). The ports and
draws of the environment and CFG are not the block's to reset (log 5). -/
def resetEdge (s : State) : State :=
  { s with
    prev := s.cfg.prevReset, cur := 0, ind := 0, mstate := .idle, w := 0, pos := .bStart, ph := 0, fault := 0, fcode := 0,
    drv := if (outputs s).csN = 0 then Memory.unknown else s.drv, trace := [] }

/-! ### One frame -/

/-- The frame is selected: `W` holds its word (10_state.md R16), PH is 0, the draw is taken, `CS(0)`. -/
def openFrame (r v : Byte) (s : State) : State :=
  emit (.cs 0) { s with w := frameWord r v, ph := 0, env := s.env.drawBus.2 }

/-- The frame is complete: both bytes, `CS(1)`, and DRV as the chip latches it (40_framer.md R105). -/
def closeFrame (r v : Byte) (latch : Memory → Memory) (s : State) : State :=
  { s with drv := latch s.drv, trace := s.trace ++ [.tx r, .tx v, .cs 1] }

/-- `writeRegister` (40_framer.md R80, R81) with the chip's reaction to the completed frame given as `latch`: CS(0), one draw, then either
the BusFault, which keeps chip-select low whatever POS is (log 19), or the two bytes, CS(1) and the latch. PH is back at 0 when the frame is over. -/
def sendFrame (r v : Byte) (latch : Memory → Memory) (s : State) : State :=
  match failsAt s.cfg s.env.drawBus.1 with
  | some p => raiseBus p (openFrame r v s)
  | none => closeFrame r v latch (openFrame r v s)

/-- `writeRegister(register, value)` for any pair: the chip latches by address (R24). -/
def writeRegister (r v : Byte) (s : State) : State := sendFrame r v (chipLatch s.cfg r v) s

/-! ### Positions and sequencing -/

/-- Entering a position (43_loop.md R155): PH is 0, and `W` is loaded if it is a frame position. -/
def enter (p : Pos) (s : State) : State := { s with pos := p, ph := 0, w := (word s.cfg p).getD s.w }

/-- After a `raise` nothing further is executed, in this operation or any other (00_scope.md R8, 60_exceptions.md R174). -/
def whenRunning (f : State → State) (s : State) : State := if s.fault = 1 then s else f s

/-- An operation of the sequencer at its position: unless the block has halted, POS names it while it runs (10_state.md R17). -/
def inPos (p : Pos) (f : State → State) (s : State) : State := whenRunning (fun t => f { t with pos := p, ph := 0 }) s

/-- The block's eight row operations in increasing order. -/
def forRows (f : Fin 8 → State → State) (s : State) : State := rows.foldl (fun t r => f r t) s

/-- An outcome's next state handed on; a fault or a refusal ends the run. -/
def onNext (o : Host.Outcome State Fault Refusal) (f : State → Host.Outcome State Fault Refusal) : Host.Outcome State Fault Refusal :=
  match o with
  | .next t => f t
  | .fault r => .fault r
  | .refused r => .refused r

/-- The answer of a meaning: an ill-formed CFG is refused (93_implementation_defined.md U12); a halted block does nothing. The operation runs at
every PH of a running block, since the event level has no PH (10_state.md R18); DESIGN CHOICE, unsafe (log 22). It runs at either level of the port
`rst`, which only `step` and `cstep` look at, since spec/ speaks of `rst` at clock edges alone (70_reset_and_hazards.md R190); DESIGN CHOICE, unsafe
(log 23). -/
def complete (f : State → State) (s : State) : Host.Outcome State Fault Refusal :=
  if s.cfg.wf then .next (whenRunning f s) else .refused .badConfig

end Sys2Proof.Machine
end

