-- ==== Sys2Proof/Machine/Frames.lean ====
section
/-! DEFINITION. The 14 frame commands (40_framer.md R86 to R99) and `writeRegister` (R80). Each command is the frame that carries it and the
effect of that completed frame on DRV. -/

namespace Sys2Proof.Machine

/-- `NOOP` (R86): DRV unchanged, the value byte is transmitted all the same. -/
def execNoop (v : Byte) (s : State) : Host.Outcome State Fault Refusal :=
  complete (fun s => sendFrame s.cfg.regNoop v id s) s

/-- `ROW1` (R87): `DRV[0x01] <- value`. -/
def execRow1 (v : Byte) (s : State) : Host.Outcome State Fault Refusal :=
  complete (sendFrame 1 v (Memory.write · 1 v)) s

/-- `ROW2` (R88): `DRV[0x02] <- value`. -/
def execRow2 (v : Byte) (s : State) : Host.Outcome State Fault Refusal :=
  complete (sendFrame 2 v (Memory.write · 2 v)) s

/-- `ROW3` (R89): `DRV[0x03] <- value`. -/
def execRow3 (v : Byte) (s : State) : Host.Outcome State Fault Refusal :=
  complete (sendFrame 3 v (Memory.write · 3 v)) s

/-- `ROW4` (R90): `DRV[0x04] <- value`. -/
def execRow4 (v : Byte) (s : State) : Host.Outcome State Fault Refusal :=
  complete (sendFrame 4 v (Memory.write · 4 v)) s

/-- `ROW5` (R91): `DRV[0x05] <- value`. -/
def execRow5 (v : Byte) (s : State) : Host.Outcome State Fault Refusal :=
  complete (sendFrame 5 v (Memory.write · 5 v)) s

/-- `ROW6` (R92): `DRV[0x06] <- value`. -/
def execRow6 (v : Byte) (s : State) : Host.Outcome State Fault Refusal :=
  complete (sendFrame 6 v (Memory.write · 6 v)) s

/-- `ROW7` (R93): `DRV[0x07] <- value`. -/
def execRow7 (v : Byte) (s : State) : Host.Outcome State Fault Refusal :=
  complete (sendFrame 7 v (Memory.write · 7 v)) s

/-- `ROW8` (R94): `DRV[0x08] <- value`. -/
def execRow8 (v : Byte) (s : State) : Host.Outcome State Fault Refusal :=
  complete (sendFrame 8 v (Memory.write · 8 v)) s

/-- `DECODE` (R95): `DRV[REG_DECODE] <- value`. -/
def execDecode (v : Byte) (s : State) : Host.Outcome State Fault Refusal :=
  complete (fun s => sendFrame s.cfg.regDecode v (Memory.write · s.cfg.regDecode v) s) s

/-- `INTENSITY` (R96): `DRV[REG_INTENSITY] <- value`. -/
def execIntensity (v : Byte) (s : State) : Host.Outcome State Fault Refusal :=
  complete (fun s => sendFrame s.cfg.regIntensity v (Memory.write · s.cfg.regIntensity v) s) s

/-- `SCANLIMIT` (R97): `DRV[REG_SCANLIMIT] <- value`. -/
def execScanlimit (v : Byte) (s : State) : Host.Outcome State Fault Refusal :=
  complete (fun s => sendFrame s.cfg.regScanlimit v (Memory.write · s.cfg.regScanlimit v) s) s

/-- `SHUTDOWN` (R98): `DRV[REG_SHUTDOWN] <- value`. -/
def execShutdown (v : Byte) (s : State) : Host.Outcome State Fault Refusal :=
  complete (fun s => sendFrame s.cfg.regShutdown v (Memory.write · s.cfg.regShutdown v) s) s

/-- `DISPTEST` (R99): `DRV[REG_DISPTEST] <- value`. -/
def execDisptest (v : Byte) (s : State) : Host.Outcome State Fault Refusal :=
  complete (fun s => sendFrame s.cfg.regDisptest v (Memory.write · s.cfg.regDisptest v) s) s

/-- `WREG r, v` (R80 to R85): any pair is transmitted unchecked, and the chip latches by the register byte (10_state.md R24). -/
def execWreg (r v : Byte) (s : State) : Host.Outcome State Fault Refusal :=
  complete (writeRegister r v) s

end Sys2Proof.Machine
end

