-- ==== Sys2Proof/Machine/Matrix.lean ====
section
/-! DEFINITION. `clear`, `showPattern`, `initialize` (41_matrix_ops.md) and what the matrix shows. A failing frame halts the block, and
`whenRunning` then skips the rest (R120). -/

namespace Sys2Proof.Machine

/-- `clear()` (R114) as a stand-alone call: POS is not its to change (95_test_vectors.md P2; log 9), and
after a failing frame chip-select stays low there (log 19). -/
def clearOp (s : State) : State := forRows (fun r => whenRunning (writeRegister (regRow r) 0)) s

/-- `showPattern(p)` (R116) as a stand-alone call: POS and chip-select as in `clearOp` (logs 9, 19). -/
def showOp (p : Pattern) (s : State) : State := forRows (fun r => whenRunning (writeRegister (regRow r) (p.row r))) s

/-- `clear()` at positions of the sequencer, `B_CLEAR(r)` or `A_CLEAR(r)` (R114). -/
def clearAt (pos : Fin 8 → Pos) (s : State) : State := forRows (fun r => inPos (pos r) (writeRegister (regRow r) 0)) s

/-- The six configuration writes at `B_INIT(0)` to `B_INIT(5)` (R111, R112). -/
def configWrites (s : State) : State :=
  initIndices.foldl
    (fun t k => inPos (.bInit k) (fun u => writeRegister (u.cfg.initPair k).1 (u.cfg.initPair k).2 u) t) s

/-- `initialize()` (R112), which ends where the table of 43_loop.md R154 goes on, at `B_STATUS` (log 9). -/
def initOp (s : State) : State := whenRunning (enter .bStatus) (clearAt .bClear (configWrites s))

/-- `CLEAR` (R114). -/
def execClear (s : State) : Host.Outcome State Fault Refusal := complete clearOp s

/-- `SHOW p` (R116), `p` a pattern id or eight bytes (30_encoding.md R69); an id that is no pattern is refused (20_memory.md R41). -/
def execShow (o : ShowOperand) (s : State) : Host.Outcome State Fault Refusal :=
  match s.cfg.shownPattern o with
  | some p => complete (showOp p) s
  | none => if s.cfg.wf then .refused .patternOutOfRange else .refused .badConfig

/-- `INIT` (R112). -/
def execInit (s : State) : Host.Outcome State Fault Refusal := complete initOp s

/-- What row `r` of the matrix shows, where the spec gives it a meaning (40_framer.md R87, R95 to R99; 93_implementation_defined.md U3):
the row register's byte while the configuration registers hold the values `initialize` leaves; no meaning otherwise. "If the chip
obeyed" (60_exceptions.md R173); log 15. -/
def shownRow (s : State) (r : Fin 8) : Option Byte :=
  if Memory.read s.drv s.cfg.regDecode = some s.cfg.valDecodeRaw ∧
      Memory.read s.drv s.cfg.regScanlimit = some s.cfg.valScanAll8 ∧
      Memory.read s.drv s.cfg.regShutdown = some s.cfg.valNormal ∧
      Memory.read s.drv s.cfg.regDisptest = some s.cfg.valTestOff then
    Memory.read s.drv (regRow r)
  else none

end Sys2Proof.Machine
end

