-- ==== Sys2Proof/Machine/Monitor.lean ====
section
/-! DEFINITION. MONITOR (42_monitor.md): sample and edge test, end of tick, indicator, status display, dwell, the alert sequence, the tick. -/

namespace Sys2Proof.Machine

/-- `sample()` for a given answer of the sensor (R125, R126, R129): a failed read writes nothing and raises SensorFault; else RD(v), CUR, and
on an edge ALERTED and `A_IND_ON`, else `T_END`. PH stays (log 22). -/
def takeSample (d : SensorDraw) (s : State) : State :=
  if d.err = 1 then raise .sensor s
  else
    { emit (.rd d.val) s with
      cur := d.val
      mstate := if edge d.val s.prev then .alerted else s.mstate
      pos := sampleTarget (edge d.val s.prev) }

/-- `SAMPLE` (R125): exactly one sensor read. -/
def sampleOp (s : State) : State := takeSample s.env.drawSensor.1 { s with env := s.env.drawSensor.2 }

/-- `TEND` (R128): `PREV <- CUR; pos <- SLEEP`. PH stays (log 22). -/
def tendOp (s : State) : State := { s with prev := s.cur, pos := .sleep }

/-- `IND_SET` (R131). -/
def indSetOp (s : State) : State := emit (.ind 1) { s with ind := 1 }

/-- `IND_CLR` (R132). -/
def indClrOp (s : State) : State := emit (.ind 0) { s with ind := 0 }

/-- `STATUS m` (R133): one event for the display's three calls. -/
def statusOp (m : Msg) (s : State) : State := emit (.sd m) s

/-- `DWELL s` (R134): a silent event; the wait changes no register but PH, which at the event level does not exist (10_state.md R18) and stays (log 22). -/
def dwellOp (n : Nat) (s : State) : State := emit (.dwell n) s

/-- `MSTATE <- IDLE` with the end of `A_RESTORE` (R130). -/
def leaveAlert (s : State) : State := { s with mstate := .idle }

/-- Step `n` of the cinematic: `showPattern(PATTERN[STEP_PAT[n]])` at `A_SHOW(n, 0..7)`, then `dwell(n)` (R130). -/
def cinematicStep (n : Nat) (s : State) : State :=
  inPos (.aDwell n) (dwellOp n)
    (forRows (fun r => inPos (.aShow n r) (fun u => writeRegister (regRow r) ((u.cfg.stepPattern n).row r) u)) s)

/-- The cinematic: every step in order (R130). -/
def cinematic (s : State) : State := (List.range s.cfg.nSteps).foldl (fun t n => cinematicStep n t) s

/-- `alert()` (R130), at its positions; it ends at the successor of `A_RESTORE`, `T_END` (log 9). -/
def alertOp (s : State) : State :=
  let s := inPos .aIndOn indSetOp s
  let s := inPos .aStatus (statusOp .alert) s
  let s := cinematic s
  let s := inPos .aIndOff indClrOp s
  let s := clearAt .aClear s
  inPos .aRestore (fun t => enter .tEnd (leaveAlert (statusOp .monitoring t))) s

/-- `tick()` (R127): sample, the alert sequence if it fired, end of tick. -/
def tickOp (s : State) : State :=
  let s := inPos .sample sampleOp s
  let s := if s.mstate = .alerted then whenRunning alertOp s else s
  inPos .tEnd tendOp s

/-- `SAMPLE`. -/
def execSample (s : State) : Host.Outcome State Fault Refusal := complete sampleOp s

/-- `TEND`. -/
def execTend (s : State) : Host.Outcome State Fault Refusal := complete tendOp s

/-- `IND_SET`. -/
def execIndSet (s : State) : Host.Outcome State Fault Refusal := complete indSetOp s

/-- `IND_CLR`. -/
def execIndClr (s : State) : Host.Outcome State Fault Refusal := complete indClrOp s

/-- `STATUS m`. -/
def execStatus (m : Msg) (s : State) : Host.Outcome State Fault Refusal := complete (statusOp m) s

/-- `DWELL s`, for `s < N_STEPS` (R134); another index is no step. -/
def execDwell (n : Nat) (s : State) : Host.Outcome State Fault Refusal :=
  if s.cfg.wf ∧ ¬ n < s.cfg.nSteps then .refused .stepOutOfRange else complete (dwellOp n) s

/-- `ALERT`. -/
def execAlert (s : State) : Host.Outcome State Fault Refusal := complete alertOp s

/-- `TICK`. -/
def execTick (s : State) : Host.Outcome State Fault Refusal := complete tickOp s

/-- The three calls one SD event stands for (R133), which the pixel-display driver is assumed to expose. -/
inductive DisplayCall where
  | clear
  | drawText (x y : Nat) (text : String)
  | present
  deriving DecidableEq, Repr

/-- `MSG_TEXT[m]` (00_scope.md R7). -/
def msgText (c : Cfg) : Msg → String
  | .alert => c.msgAlert
  | .monitoring => c.msgMonitoring

/-- The request of an SD event (R133): `clear(); drawText(SD_X, SD_Y, MSG_TEXT[m]); present()`. -/
def displayCalls (c : Cfg) (m : Msg) : List DisplayCall := [.clear, .drawText c.sdX c.sdY (msgText c m), .present]

end Sys2Proof.Machine
end

