-- ==== Sys2Proof/Machine/Loop.lean ====
section
/-! DEFINITION. The controller loop (43_loop.md R150 to R153): boot, iteration, sleep, and the host's moves (60_exceptions.md R187). -/

namespace Sys2Proof.Machine

/-- `SLEEP` (R153): a silent event, then `pos <- SAMPLE`. PH stays (log 22). -/
def sleepOp (s : State) : State := { emit .sleep s with pos := .sample }

/-- `boot()` (R151): `initialize()`, then the "monitoring" message at `B_STATUS`; it ends at `SAMPLE` (R154; log 9). -/
def bootOp (s : State) : State := inPos .bStatus (fun t => enter .sample (statusOp .monitoring t)) (initOp s)

/-- `iter()` (R152): `tick(); sleep()`. -/
def iterOp (s : State) : State := inPos .sleep sleepOp (tickOp s)

/-- `SLEEP`. -/
def execSleep (s : State) : Host.Outcome State Fault Refusal := complete sleepOp s

/-- `BOOT`. -/
def execBoot (s : State) : Host.Outcome State Fault Refusal := complete bootOp s

/-- `ITER`. -/
def execIter (s : State) : Host.Outcome State Fault Refusal := complete iterOp s

/-- The host raises or lowers `rst` (60_exceptions.md R187). -/
def setRst (level : Bit) (s : State) : State := { s with rst := level }

/-- The host may touch CFG only while `rst = 1` (R187); an ill-formed CFG is refused (93_implementation_defined.md U12). -/
def setCfg (c : Cfg) (s : State) : Host.Outcome State Fault Refusal :=
  if c.wf then .next (if s.rst = 1 then { s with cfg := c } else s) else .refused .badConfig

/-- Launch and Relaunch (R187, 70_reset_and_hazards.md R190, R192): `rst = 1`, one clock edge under the old CFG, which cuts a frame in progress; then CFG
is fixed; one clock edge under the new CFG, for its PREV_RESET; `rst = 0`. R187 says only that CFG changes while `rst = 1`: the place
between two edges is the model's. DESIGN CHOICE, unsafe (log 20). -/
def launch (c : Cfg) (s : State) : Host.Outcome State Fault Refusal :=
  if s.cfg.wf then onNext (setCfg c (resetEdge (setRst 1 s))) fun t => .next (setRst 0 (resetEdge t)) else .refused .badConfig

end Sys2Proof.Machine
end

