-- ==== Sys2Proof/Machine/Dispatch.lean ====
section
/-! DEFINITION. One arm per constructor of Instr (30_encoding.md R69). -/

namespace Sys2Proof.Machine

def exec (i : Instr) (s : State) : Host.Outcome State Fault Refusal :=
  match i with
  | .noop v => Sys2Proof.Machine.execNoop v s
  | .row1 v => Sys2Proof.Machine.execRow1 v s
  | .row2 v => Sys2Proof.Machine.execRow2 v s
  | .row3 v => Sys2Proof.Machine.execRow3 v s
  | .row4 v => Sys2Proof.Machine.execRow4 v s
  | .row5 v => Sys2Proof.Machine.execRow5 v s
  | .row6 v => Sys2Proof.Machine.execRow6 v s
  | .row7 v => Sys2Proof.Machine.execRow7 v s
  | .row8 v => Sys2Proof.Machine.execRow8 v s
  | .decode v => Sys2Proof.Machine.execDecode v s
  | .intensity v => Sys2Proof.Machine.execIntensity v s
  | .scanlimit v => Sys2Proof.Machine.execScanlimit v s
  | .shutdown v => Sys2Proof.Machine.execShutdown v s
  | .disptest v => Sys2Proof.Machine.execDisptest v s
  | .wreg r v => Sys2Proof.Machine.execWreg r v s
  | .clear => Sys2Proof.Machine.execClear s
  | .showPattern o => Sys2Proof.Machine.execShow o s
  | .initialise => Sys2Proof.Machine.execInit s
  | .alert => Sys2Proof.Machine.execAlert s
  | .boot => Sys2Proof.Machine.execBoot s
  | .status m => Sys2Proof.Machine.execStatus m s
  | .indSet => Sys2Proof.Machine.execIndSet s
  | .indClr => Sys2Proof.Machine.execIndClr s
  | .sample => Sys2Proof.Machine.execSample s
  | .dwell n => Sys2Proof.Machine.execDwell n s
  | .tend => Sys2Proof.Machine.execTend s
  | .sleep => Sys2Proof.Machine.execSleep s
  | .tick => Sys2Proof.Machine.execTick s
  | .iter => Sys2Proof.Machine.execIter s

end Sys2Proof.Machine
end

