-- ==== Sys2Proof/Machine/Fetch.lean ====
section
/-! DEFINITION. What the sequencer does at a position (43_loop.md R154): the operation it performs and what follows it. There is no instruction
fetch; in a frame position the operation is the frame that `W` holds (10_state.md R16, 40_framer.md R100, R103; log 7). -/

namespace Sys2Proof.Machine

/-- The "Operation" column of R154; none at `B_START`. -/
def fetch (s : State) : Option Instr :=
  match s.pos with
  | .bStart => none
  | .bInit _ => some (decodeFrame s.cfg s.w)
  | .bClear _ => some (decodeFrame s.cfg s.w)
  | .bStatus => some (.status .monitoring)
  | .sample => some .sample
  | .aIndOn => some .indSet
  | .aStatus => some (.status .alert)
  | .aShow _ _ => some (decodeFrame s.cfg s.w)
  | .aDwell n => some (.dwell n)
  | .aIndOff => some .indClr
  | .aClear _ => some (decodeFrame s.cfg s.w)
  | .aRestore => some (.status .monitoring)
  | .tEnd => some .tend
  | .sleep => some .sleep

/-- What a step adds after the operation of position `p` (R154, R155): nothing if the block halted; nothing where the operation itself wrote
POS (`SAMPLE`, `T_END`, `SLEEP`); else the move to the successor, after `MSTATE <- IDLE` at the end of `A_RESTORE`. -/
def moveOn (p : Pos) (s : State) : State :=
  if s.fault = 1 then s
  else
    match p with
    | .sample => s
    | .tEnd => s
    | .sleep => s
    | .aRestore => enter (successor s.cfg false .aRestore) (leaveAlert s)
    | .bStart => enter (successor s.cfg false .bStart) s
    | .bInit k => enter (successor s.cfg false (.bInit k)) s
    | .bClear r => enter (successor s.cfg false (.bClear r)) s
    | .bStatus => enter (successor s.cfg false .bStatus) s
    | .aIndOn => enter (successor s.cfg false .aIndOn) s
    | .aStatus => enter (successor s.cfg false .aStatus) s
    | .aShow n r => enter (successor s.cfg false (.aShow n r)) s
    | .aDwell n => enter (successor s.cfg false (.aDwell n)) s
    | .aIndOff => enter (successor s.cfg false .aIndOff) s
    | .aClear r => enter (successor s.cfg false (.aClear r)) s

/-- An outcome whose next state moves on from position `p`. -/
def andMoveOn (p : Pos) : Host.Outcome State Fault Refusal → Host.Outcome State Fault Refusal
  | .next t => .next (moveOn p t)
  | .fault r => .fault r
  | .refused r => .refused r

/-- Places one frame word where the next step takes its operation from: `W`, at the start of a frame position. A state already in a frame
position keeps it; another goes to `B_INIT(0)`, the first frame position after reset (log 10). -/
def placeFrame (w : FrameWord) (s : State) : State :=
  { s with w := w, ph := 0, pos := if s.pos.isFrame then s.pos else .bInit 0 }

end Sys2Proof.Machine
end

