-- ==== Sys2Proof/Machine/Step.lean ====
section
/-! DEFINITION. One step of the event level: the whole operation of the position POS (43_loop.md R150, R154), or one edge of `rst`
(70_reset_and_hazards.md R190), or nothing while halted (60_exceptions.md R174). -/

namespace Sys2Proof.Machine

/-- The next step. `rst` is over everything (60_exceptions.md R177); a halted block keeps every register (R174). -/
def step (s : State) : Host.Outcome State Fault Refusal :=
  if s.cfg.wf = false then .refused .badConfig
  else if s.rst = 1 then .next (resetEdge s)
  else if s.fault = 1 then .next s
  else if s.pos.wf s.cfg = false then .fault .badPosition
  else if s.ph ≠ 0 then .refused .insidePosition
  else
    match fetch s with
    | none => .next (moveOn s.pos s)
    | some i => andMoveOn s.pos (exec i s)

/-- `s` with the (first) frame of a table word placed where `step` takes its next operation from: bits 15..0 of `w` are the frame word. -/
def State.withFetchWord (s : State) (_nbits w : Nat) : State := placeFrame (tableFrame w 0) s

end Sys2Proof.Machine
end

