-- ==== Sys2Proof/Machine/Cycle.lean ====
section
/-! DEFINITION. The cycle level: one rising edge of `clk` (43_loop.md R155), with the events read off the run as R161 says. The draws are the pins here;
`Env` is the event level's. -/

namespace Sys2Proof.Machine

/-- The events at the edge that enters a position (R161, 40_framer.md R101): `CS(0)`, `DWELL(s)`, `SLEEP`. -/
def entryEvents : Pos → List Event
  | .bInit _ => [.cs 0]
  | .bClear _ => [.cs 0]
  | .aShow _ _ => [.cs 0]
  | .aClear _ => [.cs 0]
  | .aDwell n => [.dwell n]
  | .sleep => [.sleep]
  | .bStart => []
  | .bStatus => []
  | .sample => []
  | .aIndOn => []
  | .aStatus => []
  | .aIndOff => []
  | .aRestore => []
  | .tEnd => []

/-- The "Effect at the last edge" column of R154 and the event of a one-cycle position (R157 to R159). -/
def lastEdgeEffect (p : Pins) (s : State) : State :=
  match s.pos with
  | .bStart => s
  | .bInit _ => s
  | .bClear _ => s
  | .bStatus => statusOp .monitoring s
  | .sample => takeSample ⟨0, p.sensorIn⟩ s
  | .aIndOn => indSetOp s
  | .aStatus => statusOp .alert s
  | .aShow _ _ => s
  | .aDwell _ => s
  | .aIndOff => indClrOp s
  | .aClear _ => s
  | .aRestore => leaveAlert (statusOp .monitoring s)
  | .tEnd => tendOp s
  | .sleep => s

/-- Entering a position at a clock edge, with its entry event after the event of the position that ends (R161). -/
def arrive (q : Pos) (s : State) : State := enter q { s with trace := s.trace ++ entryEvents q }

/-- PH counts on inside a position. In a frame position the bytes are complete at their edges and `CS(1)` is the edge where PH becomes the end of
the chip-select window (40_framer.md R101); DRV latches there and not before (R105). -/
def countOn (s : State) : State :=
  let t := { s with ph := s.ph + 1 }
  if s.pos.isFrame = false then t
  else if t.ph = byteEnd s.cfg 1 then emit (.tx (frameReg s.w)) t
  else if t.ph = byteEnd s.cfg 2 then emit (.tx (frameVal s.w)) t
  else if t.ph = csEnd s.cfg then emit (.cs 1) { t with drv := latchWord s }
  else t

/-- Is this event a byte on the bus? -/
def Event.isTx : Event → Bool
  | .tx _ => true
  | .rd _ => false
  | .cs _ => false
  | .ind _ => false
  | .sd _ => false
  | .dwell _ => false
  | .sleep => false
  | .fault _ => false

/-- A failing frame takes its bytes off the trace again: the partial bits of a frame cut by `bus_err` are not events (40_framer.md R81,
R103). DEDUCED, safe (log 13). -/
def withdrawBytes (s : State) : State := { s with trace := s.trace.rdropWhile Event.isTx }

/-- The registers, DRV and TRACE after one rising edge of `clk` (R155), with R102 and R158. -/
def clockEdge (p : Pins) (s : State) : State :=
  if p.rst = 1 then resetEdge s
  else if s.fault = 1 then s
  else if s.pos.isFrame ∧ s.ph < csEnd s.cfg ∧ p.busErr = 1 then raiseBus s.ph (withdrawBytes s)
  else if s.pos = .sample ∧ p.sensorErr = 1 then raise .sensor s
  else if s.ph < len s.cfg s.pos - 1 then countOn s
  else arrive (successor s.cfg (edge p.sensorIn s.prev) s.pos) (lastEdgeEffect p s)

/-- `cstep(state, inputs)` (R155); under an ill-formed CFG no step is defined (93_implementation_defined.md U12). -/
def cstep (p : Pins) (s : State) : Host.Outcome State Fault Refusal := if s.cfg.wf then .next (clockEdge p s) else .refused .badConfig

/-- A run of the circuit under given input waveforms. -/
def crun : List Pins → State → Host.Outcome State Fault Refusal
  | [], s => .next s
  | p :: ps, s => onNext (cstep p s) (crun ps)

/-- The outputs in each cycle of a run, the first being those of the start state (R20). -/
def coutputs : List Pins → State → List Outputs
  | [], s => [outputs s]
  | p :: ps, s =>
    outputs s ::
      match cstep p s with
      | .next t => coutputs ps t
      | .fault _ => []
      | .refused _ => []

/-- The cycle-level state that stands at the same point as an event-level state at the start of a position: the entry event is
already on the trace there, since the cycle level lists it at the edge before (R161; log 13). -/
def cycleView (s : State) : State := if s.fault = 1 then s else { s with trace := s.trace ++ entryEvents s.pos }

/-- The bus draw a waveform stands for (R102): the first cycle of the position at which `bus_err` is 1. -/
def busDrawOf (ps : List Pins) : BusDraw :=
  match ps.findIdx? (fun p => p.busErr = 1) with
  | some k => .errAt k
  | none => .quiet

/-- The sensor draw at a sampling edge (R158). -/
def sensorDrawOf (p : Pins) : SensorDraw := ⟨p.sensorErr, p.sensorIn⟩

end Sys2Proof.Machine
end

