-- ==== Sys2Proof/Safety.lean ====
section
/-! DEFINITION. The terms claims are stated in: running and halted states, the good end of a run (43_loop.md R160), draws that do not fail, the traces
of the operations (30_encoding.md R71, 42_monitor.md R130), the invariants, and the chip-select discipline of a trace (40_framer.md R82). -/

namespace Sys2Proof.Machine

/-! ### Running, halted, tick boundary -/

/-- Halted (60_exceptions.md R174). Never a good end of a run. -/
def Halted (s : State) : Prop := s.fault = 1

/-- A block that runs: CFG well formed and no failure recorded. -/
def Running (s : State) : Prop := s.cfg.wf = true ∧ s.fault = 0

/-- The good end of a run (43_loop.md R160(a)): a tick boundary. -/
def TickBoundary (s : State) : Prop :=
  Running s ∧ s.pos = .sample ∧ s.ph = 0 ∧ s.ind = 0 ∧ s.mstate = .idle

/-- Ready for an event-level step: running, reset low, at the start of an operation. -/
def Ready (s : State) : Prop := Running s ∧ s.rst = 0 ∧ s.ph = 0 ∧ s.pos.wf s.cfg = true

/-! ### Draws -/

/-- The environment after `n` bus draws. -/
def Env.afterBus : Nat → Env → Env
  | 0, e => e
  | n + 1, e => Env.afterBus n e.drawBus.2

/-- The next `n` bus draws are `ok` (60_exceptions.md R171: a named premise of every claim that a frame completes). -/
def BusOk (c : Cfg) : Nat → Env → Prop
  | 0, _ => True
  | n + 1, e => failsAt c e.drawBus.1 = none ∧ BusOk c n e.drawBus.2

/-- The sensor answers ok with these values, in order (60_exceptions.md R172). -/
def SensorGives : List Bit → Env → Prop
  | [], _ => True
  | v :: vs, e => e.drawSensor.1 = ⟨0, v⟩ ∧ SensorGives vs e.drawSensor.2

/-! ### Traces of operations -/

/-- `FRAME(r, v)` for each frame word (00_scope.md R9). -/
def frameEvents (ws : List FrameWord) : List Event :=
  ws.flatMap fun w => [.cs 0, .tx (frameReg w), .tx (frameVal w), .cs 1]

/-- The events of the cinematic's step `n` (42_monitor.md R130). -/
def stepEvents (c : Cfg) (n : Nat) : List Event := frameEvents (showWords (c.stepPattern n)) ++ [.dwell n]

/-- The trace of one alert sequence (R130). -/
def alertEvents (c : Cfg) : List Event :=
  [.ind 1, .sd .alert] ++ (List.range c.nSteps).flatMap (stepEvents c) ++ [.ind 0] ++ frameEvents clearWords ++ [.sd .monitoring]

/-- The trace of `boot()` (43_loop.md R151). -/
def bootEvents (c : Cfg) : List Event := frameEvents c.initWords ++ [.sd .monitoring]

/-- The trace of a tick with sample `v` (42_monitor.md R127). -/
def tickEvents (c : Cfg) (prev v : Bit) : List Event := .rd v :: if edge v prev then alertEvents c else []

/-- The trace of iterations with samples `vs` (43_loop.md R152). -/
def iterEvents (c : Cfg) (prev : Bit) : List Bit → List Event
  | [] => []
  | v :: vs => tickEvents c prev v ++ [.sleep] ++ iterEvents c v vs

/-- How many samples rise over the one before (42_monitor.md R136). -/
def risingEdges (prev : Bit) : List Bit → Nat
  | [] => 0
  | v :: vs => (if edge v prev then 1 else 0) + risingEdges v vs

/-- The frames of an alert sequence, `8 * (N_STEPS + 1)` (R130). -/
def alertFrames (c : Cfg) : Nat := 8 * (c.nSteps + 1)

/-- `n` iterations of the loop. -/
def iterate : Nat → State → Host.Outcome State Fault Refusal
  | 0, s => .next s
  | n + 1, s => onNext (exec .iter s) (iterate n)

/-! ### Paths through the position table -/

/-- The positions of an alert sequence, in order (43_loop.md R154). -/
def alertPath (c : Cfg) : List Pos :=
  [.aIndOn, .aStatus] ++ (List.range c.nSteps).flatMap (fun n => rows.map (Pos.aShow n) ++ [.aDwell n]) ++ [.aIndOff] ++
    rows.map Pos.aClear ++ [.aRestore]

/-- The positions of boot, in order (43_loop.md R154). -/
def bootPath : List Pos := initIndices.map Pos.bInit ++ rows.map Pos.bClear ++ [.bStatus]

/-- The clock cycles of a path (43_loop.md R156). -/
def cycles (c : Cfg) (ps : List Pos) : Nat := (ps.map (len c)).sum

/-- The "Events" column of the table of 43_loop.md R154; `v` is the sample. -/
def tableEvents (c : Cfg) (v : Bit) (p : Pos) : List Event :=
  match word c p with
  | some w => frameEvents [w]
  | none =>
    match p with
    | .bStatus => [.sd .monitoring]
    | .sample => [.rd v]
    | .aIndOn => [.ind 1]
    | .aStatus => [.sd .alert]
    | .aDwell n => [.dwell n]
    | .aIndOff => [.ind 0]
    | .aRestore => [.sd .monitoring]
    | .sleep => [.sleep]
    | _ => []

/-- A state whose environment will answer the sensor reads otherwise. -/
def withSensor (ds : List SensorDraw) (n : Nat) (s : State) : State :=
  { s with env := { s.env with sensor := ds, sensorFree := n } }

/-! ### Effects on DRV -/

/-- A completed frame `(r, v)` from `s`: the frame's registers and events, DRV as given, all else as before. -/
def sentFrame (r v : Byte) (drv : Memory) (s : State) : State :=
  { s with
    w := frameWord r v, ph := 0, env := s.env.drawBus.2, drv := drv,
    trace := s.trace ++ [.cs 0, .tx r, .tx v, .cs 1] }

/-- From `s`, the frames `ws` whole and then the frame `w` cut in its cycle `p` (41_matrix_ops.md R120): what a composite that fails leaves,
all else as before. -/
def cutAfter (ws : List FrameWord) (w : FrameWord) (p : Nat) (s : State) : State :=
  { s with
    w := w, ph := p, env := Env.afterBus (ws.length + 1) s.env, drv := Memory.unknown, fault := 1, fcode := 1,
    trace := s.trace ++ frameEvents ws ++ [.cs 0, .fault .bus] }

/-- `DRV[a] <- v` and no other entry, with the canonical form kept. -/
def DrvSets (a v : Byte) (m m' : Memory) : Prop :=
  Memory.read m' a = some v ∧ (∀ b, b ≠ a → Memory.read m' b = Memory.read m b) ∧ (Memory.wf m = true → Memory.wf m' = true)

/-- The row registers hold the bytes of `p`, and no other entry changed. -/
def DrvShows (p : Pattern) (m m' : Memory) : Prop :=
  (∀ r, Memory.read m' (regRow r) = some (p.row r)) ∧
    (∀ b, (∀ r, b ≠ regRow r) → Memory.read m' b = Memory.read m b) ∧ (Memory.wf m = true → Memory.wf m' = true)

/-! ### Invariants -/

/-- The positions with `IND = 1` (10_state.md R28(b)). -/
def Pos.indHigh : Pos → Bool
  | .aStatus => true
  | .aShow _ _ => true
  | .aDwell _ => true
  | .aIndOff => true
  | .bStart => false
  | .bInit _ => false
  | .bClear _ => false
  | .bStatus => false
  | .sample => false
  | .aIndOn => false
  | .aClear _ => false
  | .aRestore => false
  | .tEnd => false
  | .sleep => false

/-- What holds in every reachable state, at either level: 10_state.md R16, R18, R19, R28, 60_exceptions.md R177, the canonical form of DRV. -/
structure Inv (s : State) : Prop where
  cfgOk    : s.cfg.wf = true
  posOk    : s.pos.wf s.cfg = true
  phOk     : s.ph < len s.cfg s.pos
  drvOk    : Memory.wf s.drv = true
  wordOk   : ∀ w, word s.cfg s.pos = some w → s.w = w
  alerted  : s.mstate = .alerted ↔ s.pos.isAlert = true
  indOk    : s.ind = 1 ↔ s.pos.indHigh = true
  alertCur : s.pos.isAlert = true → s.cur = 1 ∧ s.prev = 0
  codeZero : s.fault = 0 ↔ s.fcode = 0
  codeBus  : s.fcode = 1 → s.pos.isFrame = true ∧ s.ph < csEnd s.cfg
  codeSens : s.fcode = 2 → s.pos = .sample
  codeMax  : s.fcode ≠ 3

/-- The event level's invariant: besides, a block that runs is at the start of an operation. -/
def EventInv (s : State) : Prop := Inv s ∧ (s.fault = 0 → s.ph = 0)

/-! ### The chip-select discipline (40_framer.md R82) -/

/-- Where a trace stands in a frame. -/
inductive BusPhase where
  | between      -- chip-select high
  | selected     -- after CS(0)
  | oneByte
  | twoBytes
  | halted       -- after FAULT: nothing may follow
  deriving DecidableEq, Repr

/-- The next event a trace may have: inside a frame exactly two `TX` and then `CS(1)`, or the bus failure; a sensor failure only between frames. -/
def busNext : BusPhase → Event → Option BusPhase
  | .between, .cs b => if b = 0 then some .selected else none
  | .between, .rd _ => some .between
  | .between, .ind _ => some .between
  | .between, .sd _ => some .between
  | .between, .dwell _ => some .between
  | .between, .sleep => some .between
  | .between, .fault .sensor => some .halted
  | .selected, .tx _ => some .oneByte
  | .selected, .fault .bus => some .halted
  | .oneByte, .tx _ => some .twoBytes
  | .twoBytes, .cs b => if b = 1 then some .between else none
  | _, _ => none

/-- The phase at the end of a trace, if every event of it was allowed. -/
def tracePhase (es : List Event) : Option BusPhase := es.foldlM busNext .between

/-- The trace of a running block ends between frames, that of a halted one with its failure. -/
def TraceInv (s : State) : Prop :=
  (s.fault = 0 → tracePhase s.trace = some .between) ∧ (s.fault = 1 → tracePhase s.trace = some .halted)

/-- Where the block stands in a frame at the cycle level: the bytes complete at `byteEnd`, chip-select rises at `csEnd` (40_framer.md R101). -/
def busPhase (s : State) : BusPhase :=
  if s.fault = 1 then .halted
  else if s.pos.isFrame = false then .between
  else if s.ph < byteEnd s.cfg 1 then .selected
  else if s.ph < byteEnd s.cfg 2 then .oneByte
  else if s.ph < csEnd s.cfg then .twoBytes
  else .between

/-- At the cycle level the trace stands, at every clock edge, where the wires stand. -/
def CycleTraceInv (s : State) : Prop := tracePhase s.trace = some (busPhase s)

end Sys2Proof.Machine
end

