-- ==== Sys2Proof/Certificates/Slice0/Obligations.lean ====
section
/-! DEFINITION. The statements for the provers. Each docstring names the rule or section of spec/ it formalises. `Running`, `Ready`, `BusOk`, `SensorGives`
and the traces and effects they speak of are in Safety.lean. What `exec` does at PH not 0 and with `rst` = 1 is the model's choice (logs 22, 23), and
statements about `exec` hold there too. -/

open Sys2Proof Sys2Proof.Machine

/-! ### Encoding -/

/-- 30_encoding.md R64, R66, 95_test_vectors.md 2.2: eight words of the command map, one reserved word, and two bus images. That the reserved word reads as `WREG` is the
model's choice (log 8). -/
def Obligations.SpecWordsDecode : Prop :=
  decodeTableWord 16 0x00AB = some (.noop 0xAB) ∧ decodeTableWord 16 0x0281 = some (.row2 0x81) ∧
    decodeTableWord 16 0x083C = some (.row8 0x3C) ∧ decodeTableWord 16 0x0900 = some (.decode 0) ∧
    decodeTableWord 16 0x0A08 = some (.intensity 8) ∧ decodeTableWord 16 0x0B07 = some (.scanlimit 7) ∧
    decodeTableWord 16 0x0C01 = some (.shutdown 1) ∧ decodeTableWord 16 0x0F00 = some (.disptest 0) ∧
    decodeTableWord 16 0x1001 = some (.wreg 0x10 0x01) ∧
    decodeTableWord 128 0x08000700060005000400030002000100 = some .clear ∧
    decodeTableWord 128 0x083C0742069905A5048103A50242013C = some (.showPattern (.bytes Pattern.relax))

/-- 30_encoding.md R64, R71, R73: decoding an operation's image gives the operation back, under every well-formed CFG and every operand, but for the
names that share an image (`canonical`, log 8). -/
def Obligations.DecodeOfEncode : Prop :=
  ∀ (c : Cfg), c.wf = true → ∀ (i : Instr) (im : Image), encode c i = some im → decodeImage c im = .ok (canonical c i)

/-- 30_encoding.md R60, R61: every frame word is read as a command whose own frame is that very word, so that no bit of it is dropped. That
a word with a reserved register byte, a miss of R64's map, is read as `WREG` is the model's choice (log 8). -/
def Obligations.EncodeOfDecodedFrame : Prop :=
  ∀ (c : Cfg) (w : FrameWord), encode c (decodeFrame c w) = some (.frames [w])

/-- 41_matrix_ops.md R111, R112, R113: the frames of `initialize()` are standby, display-test off, raw decode, scan-limit, intensity and normal operation
in that order, then the eight row clears; with the default CFG their bytes are those of the table. -/
def Obligations.InitializeOrder : Prop :=
  (∀ c : Cfg, c.wf = true →
    c.initWords.map (decodeFrame c) =
      [.shutdown c.valStandby, .disptest c.valTestOff, .decode c.valDecodeRaw, .scanlimit c.valScanAll8, .intensity c.valIntensity,
        .shutdown c.valNormal, .row1 0, .row2 0, .row3 0, .row4 0, .row5 0, .row6 0, .row7 0, .row8 0]) ∧
    Cfg.default.initWords.take 6 = [0x0C00, 0x0F00, 0x0900, 0x0B07, 0x0A08, 0x0C01]

/-- 30_encoding.md R65, R67: whatever the position, the frame it transmits is a row command, or a configuration command with the value `initialize()` gives it. -/
def Obligations.SequencerEmitsOnlyEnumeratedFrames : Prop :=
  ∀ (c : Cfg) (p : Pos) (w : FrameWord), c.wf = true → word c p = some w →
    (∃ v, decodeFrame c w ∈ ([.row1 v, .row2 v, .row3 v, .row4 v, .row5 v, .row6 v, .row7 v, .row8 v] : List Instr)) ∨
      decodeFrame c w ∈
        ([.decode c.valDecodeRaw, .intensity c.valIntensity, .scanlimit c.valScanAll8, .shutdown c.valStandby, .shutdown c.valNormal,
          .disptest c.valTestOff] : List Instr)

/-! ### Waveform -/

/-- 30_encoding.md R72, 40_framer.md R103, R104: the wire decoder reads any sequence of frames back from their waveforms, whatever the timing
parameters, one frame a chip-select pulse, with R72's events; and the wires in the cycles of a run of the circuit through a frame position are that
waveform of W. -/
def Obligations.WireDecoderRecoversFrames : Prop :=
  (∀ (c : Cfg), c.wf = true → ∀ ws : List FrameWord,
    wireFrames .start (ws.flatMap (frameWires c)) = ws.map .whole ∧ wireEvents .start (ws.flatMap (frameWires c)) = frameEvents ws) ∧
    ∀ (s : State) (ps : List Pins), Running s → s.pos.isFrame = true → s.ph = 0 → (∀ p ∈ ps, p.rst = 0) →
      failsAt s.cfg (busDrawOf ps) = none → ps.length + 1 = lenFrame s.cfg →
      (coutputs ps s).map Outputs.bus = frameWires s.cfg s.w

/-- 40_framer.md R102, R103, 30_encoding.md R72: a frame cut by `bus_err` in its cycle `p` holds the wires of that cycle for as long as the block is not reset, and the
wire decoder reads the one event `CS(0)` from them (log 21). -/
def Obligations.CutFrameHoldsTheWires : Prop :=
  ∀ (s : State) (ps : List Pins) (p : Nat), Running s → s.pos.isFrame = true → s.ph = 0 → (∀ q ∈ ps, q.rst = 0) →
    failsAt s.cfg (busDrawOf ps) = some p →
    (coutputs ps s).map Outputs.bus = (List.range (ps.length + 1)).map (fun n => wave s.cfg s.w (min n p)) ∧
      wireEvents .start ((coutputs ps s).map Outputs.bus) = [.cs 0]

/-- 40_framer.md R100: the four segments of the waveform, which are the wires of a frame position, and the idle wires outside frame positions.
That a block halted by BusFault holds its waveform at every POS is the model's reading of R81 beside R20 (log 19). -/
def Obligations.WaveformSegments : Prop :=
  (∀ (c : Cfg) (w : FrameWord) (ph : Nat), ph < c.tLead → wave c w ph = ⟨0, 0, wordBit w 15⟩) ∧
    (∀ (c : Cfg) (w : FrameWord) (i j : Nat), i < 16 → j < 2 * c.tHalf →
      wave c w (c.tLead + 2 * c.tHalf * (15 - i) + j) = ⟨0, if c.tHalf ≤ j then 1 else 0, wordBit w i⟩) ∧
    (∀ (c : Cfg) (w : FrameWord) (ph : Nat), c.tLead + 32 * c.tHalf ≤ ph → ph < c.tLead + 32 * c.tHalf + c.tTrail →
      wave c w ph = ⟨0, 0, 0⟩) ∧
    (∀ (c : Cfg) (w : FrameWord) (ph : Nat), c.tLead + 32 * c.tHalf + c.tTrail ≤ ph → wave c w ph = ⟨1, 0, 0⟩) ∧
    (∀ s : State, s.pos.isFrame = true → wires s = wave s.cfg s.w s.ph) ∧
    (∀ s : State, s.pos.isFrame = false → ¬ (s.fault = 1 ∧ s.fcode = 1) → wires s = ⟨1, 0, 0⟩) ∧
    (∀ s : State, s.fault = 1 → s.fcode = 1 → wires s = wave s.cfg s.w s.ph)

/-- 10_state.md R14, R20, 43_loop.md R157, R159: the output ports: the bus wires, the indicator latch, the status strobe in exactly its three positions with the message
of `A_STATUS`, and the failure. -/
def Obligations.OutputPorts : Prop :=
  ∀ s : State,
    (outputs s).bus = wires s ∧ (outputs s).indOut = s.ind ∧
      ((outputs s).sdValid = 1 ↔ s.pos = .bStatus ∨ s.pos = .aStatus ∨ s.pos = .aRestore) ∧
      ((outputs s).sdMsg = 1 ↔ s.pos = .aStatus) ∧ (outputs s).fault = s.fault ∧ (outputs s).fcode = s.fcode

/-! ### The frame commands -/

/-- 10_state.md R24(b), (c), (d): what a completed frame does to DRV, by its register byte. -/
def Obligations.ChipLatchByAddress : Prop :=
  ∀ (c : Cfg) (r v : Byte) (m : Memory),
    (r = c.regNoop → chipLatch c r v m = m) ∧
      (r ≠ c.regNoop → r ∈ c.addresses → DrvSets r v m (chipLatch c r v m)) ∧
      (r ≠ c.regNoop → r ∉ c.addresses → ∀ a, Memory.read (chipLatch c r v m) a = none)

/-- 40_framer.md R86: `NOOP` is transmitted with its value byte and DRV is unchanged; no position of the sequencer emits it. -/
def Obligations.NoopChangesNothingInTheChip : Prop :=
  (∀ (s : State) (v : Byte), Running s → failsAt s.cfg s.env.drawBus.1 = none →
    exec (.noop v) s = .next (sentFrame s.cfg.regNoop v s.drv s)) ∧
    ∀ (c : Cfg) (p : Pos) (w : FrameWord) (v : Byte), c.wf = true → word c p = some w → decodeFrame c w ≠ .noop v

/-- 40_framer.md R87 to R94: each row command sends its frame and sets its own entry of DRV, and no other entry and no other register of the block changes. -/
def Obligations.RowCommandsSetTheirRow : Prop :=
  ∀ (s : State) (v : Byte), Running s → failsAt s.cfg s.env.drawBus.1 = none →
    (∃ m, exec (.row1 v) s = .next (sentFrame 0x01 v m s) ∧ DrvSets 0x01 v s.drv m) ∧
    (∃ m, exec (.row2 v) s = .next (sentFrame 0x02 v m s) ∧ DrvSets 0x02 v s.drv m) ∧
    (∃ m, exec (.row3 v) s = .next (sentFrame 0x03 v m s) ∧ DrvSets 0x03 v s.drv m) ∧
    (∃ m, exec (.row4 v) s = .next (sentFrame 0x04 v m s) ∧ DrvSets 0x04 v s.drv m) ∧
    (∃ m, exec (.row5 v) s = .next (sentFrame 0x05 v m s) ∧ DrvSets 0x05 v s.drv m) ∧
    (∃ m, exec (.row6 v) s = .next (sentFrame 0x06 v m s) ∧ DrvSets 0x06 v s.drv m) ∧
    (∃ m, exec (.row7 v) s = .next (sentFrame 0x07 v m s) ∧ DrvSets 0x07 v s.drv m) ∧
    (∃ m, exec (.row8 v) s = .next (sentFrame 0x08 v m s) ∧ DrvSets 0x08 v s.drv m)

/-- 40_framer.md R95 to R99: each configuration command sends its frame and sets its own entry of DRV. -/
def Obligations.ConfigCommandsSetTheirRegister : Prop :=
  ∀ (s : State) (v : Byte), Running s → failsAt s.cfg s.env.drawBus.1 = none →
    (∃ m, exec (.decode v) s = .next (sentFrame s.cfg.regDecode v m s) ∧ DrvSets s.cfg.regDecode v s.drv m) ∧
    (∃ m, exec (.intensity v) s = .next (sentFrame s.cfg.regIntensity v m s) ∧ DrvSets s.cfg.regIntensity v s.drv m) ∧
    (∃ m, exec (.scanlimit v) s = .next (sentFrame s.cfg.regScanlimit v m s) ∧ DrvSets s.cfg.regScanlimit v s.drv m) ∧
    (∃ m, exec (.shutdown v) s = .next (sentFrame s.cfg.regShutdown v m s) ∧ DrvSets s.cfg.regShutdown v s.drv m) ∧
    (∃ m, exec (.disptest v) s = .next (sentFrame s.cfg.regDisptest v m s) ∧ DrvSets s.cfg.regDisptest v s.drv m)

/-- 40_framer.md R80, R85, 10_state.md R24: `writeRegister` sends any pair unchanged, and the chip latches it by its address. -/
def Obligations.WriteRegisterSendsAnyPair : Prop :=
  ∀ (s : State) (r v : Byte), Running s → failsAt s.cfg s.env.drawBus.1 = none →
    exec (.wreg r v) s = .next (sentFrame r v (chipLatch s.cfg r v s.drv) s)

/-- 40_framer.md R85: the framer is transparent: whichever command a word is read as, sending it is `writeRegister` of its two bytes, from every state.
(That a reserved word is read as `WREG`: log 8.) -/
def Obligations.CommandIsWriteRegister : Prop :=
  ∀ (s : State) (w : FrameWord), exec (decodeFrame s.cfg w) s = exec (.wreg (frameReg w) (frameVal w)) s

/-- 40_framer.md R81, 60_exceptions.md R170, R175, 95_test_vectors.md V-F6: a frame whose draw is `fail` in cycle `p`: `CS(0), FAULT(BUS)`, FAULT, FCODE 1, PH frozen, DRV
all ⊥, and no other register changes; chip-select stays low (at a POS that is no frame position: log 19). -/
def Obligations.BusFailureHaltsTheFrame : Prop :=
  ∀ (s : State) (i : Instr) (w : FrameWord) (p : Nat), Running s → encode s.cfg i = some (.frames [w]) →
    failsAt s.cfg s.env.drawBus.1 = some p →
    ∃ t, exec i s = .next t ∧ (outputs t).csN = 0 ∧
      t =
        { s with
          w := w, ph := p, env := s.env.drawBus.2, drv := Memory.unknown, fault := 1, fcode := 1,
          trace := s.trace ++ [.cs 0, .fault .bus] }

/-! ### Matrix operations -/

/-- 41_matrix_ops.md R114: `clear()` emits its eight frames and leaves every row 0x00 and every other entry as it was. -/
def Obligations.ClearCompletes : Prop :=
  ∀ (s : State), Running s → BusOk s.cfg 8 s.env →
    ∃ m, exec .clear s = .next
        { s with w := 0x0800, ph := 0, env := Env.afterBus 8 s.env, drv := m, trace := s.trace ++ frameEvents clearWords } ∧
      DrvShows Pattern.blank s.drv m

/-- 41_matrix_ops.md R116, 30_encoding.md R69, 20_memory.md R41: `showPattern` of eight bytes or of a pattern id emits its eight frames, row by row, and leaves the rows
holding exactly the bytes of the pattern; an id that is no pattern is refused (log 16). -/
def Obligations.ShowCompletes : Prop :=
  (∀ (s : State) (o : ShowOperand) (p : Pattern), Running s → s.cfg.shownPattern o = some p → BusOk s.cfg 8 s.env →
    ∃ m, exec (.showPattern o) s = .next
        { s with
          w := frameWord 0x08 p.row7, ph := 0, env := Env.afterBus 8 s.env, drv := m,
          trace := s.trace ++ frameEvents (showWords p) } ∧
      DrvShows p s.drv m) ∧
    (∀ (s : State) (p : Pattern), s.cfg.shownPattern (.bytes p) = some p) ∧
    (∀ (s : State) (n : Nat), n < s.cfg.patterns.length →
      ∃ p, s.cfg.shownPattern (.id n) = some p ∧ s.cfg.patterns[n]? = some p) ∧
    ∀ (s : State) (n : Nat), s.cfg.wf = true → ¬ n < s.cfg.patterns.length →
      exec (.showPattern (.id n)) s = .refused .patternOutOfRange

/-- 41_matrix_ops.md R112: `initialize()` emits 14 frames, leaves the configuration registers at the values of INITTAB and the rows 0x00, whatever DRV
held before. That POS ends at the successor `B_STATUS` is the model's reading (log 9). -/
def Obligations.InitializeCompletes : Prop :=
  ∀ (s : State), Running s → BusOk s.cfg 14 s.env →
    ∃ m, exec .initialise s = .next
        { s with
          w := 0x0800, ph := 0, pos := .bStatus, env := Env.afterBus 14 s.env, drv := m,
          trace := s.trace ++ frameEvents s.cfg.initWords } ∧
      (∀ r, Memory.read m (regRow r) = some 0) ∧
      Memory.read m s.cfg.regShutdown = some s.cfg.valNormal ∧ Memory.read m s.cfg.regDisptest = some s.cfg.valTestOff ∧
      Memory.read m s.cfg.regDecode = some s.cfg.valDecodeRaw ∧ Memory.read m s.cfg.regScanlimit = some s.cfg.valScanAll8 ∧
      Memory.read m s.cfg.regIntensity = some s.cfg.valIntensity ∧
      (∀ a, a = s.cfg.regNoop ∨ a ∉ s.cfg.addresses → Memory.read m a = Memory.read s.drv a)

/-- 41_matrix_ops.md R115: a second `clear()` emits the same frames and leaves DRV as the first did. -/
def Obligations.ClearIsIdempotent : Prop :=
  ∀ (s : State), Running s → BusOk s.cfg 16 s.env →
    ∃ t u, exec .clear s = .next t ∧ exec .clear t = .next u ∧ (∀ a, Memory.read u.drv a = Memory.read t.drv a) ∧
      t.trace = s.trace ++ frameEvents clearWords ∧ u.trace = t.trace ++ frameEvents clearWords

/-- 41_matrix_ops.md R119: `showPattern(P); clear(); showPattern(P)` emits the identical events both times, and the last leaves the rows holding `P`. -/
def Obligations.PatternRoundTrip : Prop :=
  ∀ (s : State) (o : ShowOperand) (p : Pattern), Running s → s.cfg.shownPattern o = some p → BusOk s.cfg 24 s.env →
    ∃ t u v, exec (.showPattern o) s = .next t ∧ exec .clear t = .next u ∧ exec (.showPattern o) u = .next v ∧
      (∃ es, t.trace = s.trace ++ es ∧ v.trace = u.trace ++ es) ∧ (∀ r, Memory.read v.drv (regRow r) = some (p.row r))

/-- 40_framer.md R87, R95, R97, R98, R99: with the configuration registers as `initialize()` leaves them, the matrix shows a pattern's rows once
`showPattern` has sent them (if the chip obeyed, 60_exceptions.md R173; `shownRow` is log 15). -/
def Obligations.ShownAfterShowPattern : Prop :=
  ∀ (s t : State) (o : ShowOperand) (p : Pattern), Running s → s.cfg.shownPattern o = some p → BusOk s.cfg 8 s.env →
    Memory.read s.drv s.cfg.regDecode = some s.cfg.valDecodeRaw → Memory.read s.drv s.cfg.regScanlimit = some s.cfg.valScanAll8 →
    Memory.read s.drv s.cfg.regShutdown = some s.cfg.valNormal → Memory.read s.drv s.cfg.regDisptest = some s.cfg.valTestOff →
    exec (.showPattern o) s = .next t → ∀ r, shownRow t r = some (p.row r)

/-- 41_matrix_ops.md R120: a composite whose frame `w` fails after the frames `ws` stops there: `ws` whole, `w` broken, none after, the block halted with chip-select
low, also inside boot; `initialize` and boot halt at the position of the frame. (The POS a stand-alone `clear` or `showPattern` keeps, and its wires: logs 9, 19.) -/
def Obligations.FailedCompositeStops : Prop :=
  ∀ (s : State) (ws rest : List FrameWord) (w : FrameWord) (p : Nat), Running s → BusOk s.cfg ws.length s.env →
    failsAt s.cfg (Env.afterBus ws.length s.env).drawBus.1 = some p →
    (clearWords = ws ++ w :: rest → exec .clear s = .next (cutAfter ws w p s)) ∧
      (∀ (o : ShowOperand) (q : Pattern), s.cfg.shownPattern o = some q → showWords q = ws ++ w :: rest →
        exec (.showPattern o) s = .next (cutAfter ws w p s)) ∧
      (s.cfg.initWords = ws ++ w :: rest →
        ∃ q, bootPath[ws.length]? = some q ∧ word s.cfg q = some w ∧
          exec .initialise s = .next { cutAfter ws w p s with pos := q } ∧ exec .boot s = .next { cutAfter ws w p s with pos := q }) ∧
      (outputs (cutAfter ws w p s)).csN = 0

/-! ### MONITOR -/

/-- 42_monitor.md R125, R126, R129: one sensor read; an edge starts the alert. (That PH stays is log 22.) -/
def Obligations.SampleCompletes : Prop :=
  ∀ (s : State) (v : Bit), Running s → s.env.drawSensor.1 = ⟨0, v⟩ →
    exec .sample s = .next
      { s with
        env := s.env.drawSensor.2, trace := s.trace ++ [.rd v], cur := v,
        mstate := if v = 1 ∧ s.prev = 0 then .alerted else s.mstate,
        pos := if v = 1 ∧ s.prev = 0 then .aIndOn else .tEnd }

/-- 60_exceptions.md R170, R172, 42_monitor.md R138: a failed read raises SensorFault, whatever value came with it, and writes neither CUR nor MSTATE nor POS. -/
def Obligations.SensorFailureHalts : Prop :=
  ∀ (s : State), Running s → s.env.drawSensor.1.err = 1 →
    exec .sample s = .next
      { s with env := s.env.drawSensor.2, fault := 1, fcode := 2, trace := s.trace ++ [.fault .sensor] }

/-- 42_monitor.md R128: end of tick. (That PH stays is log 22.) -/
def Obligations.EndOfTickCopiesTheSample : Prop :=
  ∀ (s : State), Running s → exec .tend s = .next { s with prev := s.cur, pos := .sleep }

/-- 42_monitor.md R131, R132: the indicator operations. -/
def Obligations.IndicatorOperations : Prop :=
  ∀ (s : State), Running s →
    exec .indSet s = .next { s with ind := 1, trace := s.trace ++ [.ind 1] } ∧
      exec .indClr s = .next { s with ind := 0, trace := s.trace ++ [.ind 0] }

/-- 42_monitor.md R133: one `SD(m)` event, no register written. -/
def Obligations.StatusRequestCompletes : Prop :=
  ∀ (s : State) (m : Msg), Running s → exec (.status m) s = .next { s with trace := s.trace ++ [.sd m] }

/-- 42_monitor.md R134: a dwell of a step of the cinematic is a silent event and writes no register; an index that is no step is refused (log 16). -/
def Obligations.DwellCompletes : Prop :=
  ∀ (s : State) (n : Nat), Running s →
    (n < s.cfg.nSteps → exec (.dwell n) s = .next { s with trace := s.trace ++ [.dwell n] }) ∧
      (¬ n < s.cfg.nSteps → exec (.dwell n) s = .refused .stepOutOfRange)

/-- 43_loop.md R153: the polling interval. (That PH stays is log 22.) -/
def Obligations.SleepCompletes : Prop :=
  ∀ (s : State), Running s → exec .sleep s = .next { s with pos := .sample, trace := s.trace ++ [.sleep] }

/-- 42_monitor.md R130: the alert sequence emits exactly its events in order, ends IDLE with the indicator low and the matrix cleared, and touches neither
PREV nor CUR. That POS ends at the successor `T_END` is the model's reading (log 9). -/
def Obligations.AlertCompletes : Prop :=
  ∀ (s : State), Running s → BusOk s.cfg (alertFrames s.cfg) s.env →
    ∃ m, exec .alert s = .next
        { s with
          ind := 0, mstate := .idle, w := 0x0800, pos := .tEnd, ph := 0, env := Env.afterBus (alertFrames s.cfg) s.env, drv := m,
          trace := s.trace ++ alertEvents s.cfg } ∧
      DrvShows Pattern.blank s.drv m

/-- 42_monitor.md R127: a tick from IDLE without an edge only records the sample; a tick with an edge runs the alert sequence first. -/
def Obligations.TickCompletes : Prop :=
  ∀ (s : State) (v : Bit), Running s → s.env.drawSensor.1 = ⟨0, v⟩ →
    (s.mstate = .idle → ¬ (v = 1 ∧ s.prev = 0) →
      exec .tick s = .next
        { s with prev := v, cur := v, pos := .sleep, ph := 0, env := s.env.drawSensor.2, trace := s.trace ++ [.rd v] }) ∧
    (v = 1 ∧ s.prev = 0 → BusOk s.cfg (alertFrames s.cfg) s.env.drawSensor.2 →
      ∃ m, exec .tick s = .next
          { s with
            prev := 1, cur := 1, ind := 0, mstate := .idle, w := 0x0800, pos := .sleep, ph := 0,
            env := Env.afterBus (alertFrames s.cfg) s.env.drawSensor.2, drv := m,
            trace := s.trace ++ [.rd 1] ++ alertEvents s.cfg } ∧
        DrvShows Pattern.blank s.drv m)

/-- 43_loop.md R152: an iteration from IDLE is a tick and then the sleep, back at `SAMPLE`; with an edge the alert sequence stands between. -/
def Obligations.IterationCompletes : Prop :=
  ∀ (s : State) (v : Bit), Running s → s.mstate = .idle → s.env.drawSensor.1 = ⟨0, v⟩ →
    (edge v s.prev = true → BusOk s.cfg (alertFrames s.cfg) s.env.drawSensor.2) →
    ∃ t, exec .iter s = .next t ∧ t.pos = .sample ∧ t.ph = 0 ∧ t.prev = v ∧ t.cur = v ∧ t.mstate = .idle ∧ t.fault = 0 ∧ t.fcode = s.fcode ∧
      t.ind = (if edge v s.prev then 0 else s.ind) ∧ t.trace = s.trace ++ tickEvents s.cfg s.prev v ++ [.sleep] ∧
      t.cfg = s.cfg ∧ t.rst = s.rst ∧ t.w = (if edge v s.prev then 0x0800 else s.w) ∧
      (edge v s.prev = false → t.drv = s.drv ∧ t.env = s.env.drawSensor.2) ∧
      (edge v s.prev = true → DrvShows Pattern.blank s.drv t.drv ∧ t.env = Env.afterBus (alertFrames s.cfg) s.env.drawSensor.2)

/-- 43_loop.md R151, 95_test_vectors.md P1: boot emits the 14 frames and the "monitoring" request, leaves the chip's registers as `initialize()` does, touches no
indicator and reads no sensor. That POS ends at
the successor `SAMPLE` is the table of R154 (log 9). -/
def Obligations.BootCompletes : Prop :=
  ∀ (s : State), Running s → BusOk s.cfg 14 s.env →
    ∃ m, exec .boot s = .next
        { s with
          w := 0x0800, ph := 0, pos := .sample, env := Env.afterBus 14 s.env, drv := m, trace := s.trace ++ bootEvents s.cfg } ∧
      (∀ r, Memory.read m (regRow r) = some 0) ∧
      Memory.read m s.cfg.regShutdown = some s.cfg.valNormal ∧ Memory.read m s.cfg.regDisptest = some s.cfg.valTestOff ∧
      Memory.read m s.cfg.regDecode = some s.cfg.valDecodeRaw ∧ Memory.read m s.cfg.regScanlimit = some s.cfg.valScanAll8 ∧
      Memory.read m s.cfg.regIntensity = some s.cfg.valIntensity ∧
      (∀ a, a = s.cfg.regNoop ∨ a ∉ s.cfg.addresses → Memory.read m a = Memory.read s.drv a)

/-- 42_monitor.md R138, 60_exceptions.md R174, R175: an alert sequence that fails stops at the failing frame: the position names it, the cause is BUS, every entry
of DRV is ⊥, MSTATE, PREV and CUR stay, the indicator is 1 exactly where the sequence had it on, chip-select is low, and the trace has the events of every position before
and then `CS(0), FAULT(BUS)`. -/
def Obligations.FailedAlertFreezes : Prop :=
  ∀ (s t : State), Running s → exec .alert s = .next t → t.fault = 1 →
    t.fcode = 1 ∧ t.pos.isAlert = true ∧ t.pos.isFrame = true ∧ t.ph < csEnd t.cfg ∧ word t.cfg t.pos = some t.w ∧
      t.mstate = s.mstate ∧ t.prev = s.prev ∧ t.cur = s.cur ∧ t.ind = (if t.pos.indHigh then 1 else 0) ∧ (outputs t).csN = 0 ∧
      (∀ a, Memory.read t.drv a = none) ∧
      ∃ before after, alertPath s.cfg = before ++ t.pos :: after ∧
        t.trace = s.trace ++ before.flatMap (tableEvents s.cfg 1) ++ [.cs 0, .fault .bus]

/-- 42_monitor.md R138: after a failure inside a tick neither `tend()` nor the sleep runs: PREV keeps the value of the tick before. -/
def Obligations.FailedTickSkipsItsEnd : Prop :=
  ∀ (s t : State), Running s → exec .tick s = .next t → t.fault = 1 →
    t.prev = s.prev ∧ exec .iter s = .next t

/-! ### Halt and reset -/

/-- 60_exceptions.md R174, R176: while FAULT = 1 nothing changes short of reset, at either level and under any input. (That a step of a halted
block is a next state: log 14.) -/
def Obligations.HaltIsQuiescent : Prop :=
  ∀ (s : State), s.cfg.wf = true → s.fault = 1 →
    (∀ i : Instr, i.wf s.cfg = true → exec i s = .next s) ∧ (s.rst = 0 → step s = .next s) ∧
      (∀ p : Pins, p.rst = 0 → cstep p s = .next s)

/-- 70_reset_and_hazards.md R190, R192, 10_state.md R24(e), (f), R27: an edge with `rst = 1` gives every register its reset value, whatever the block was doing and
whatever other input is up, empties TRACE, and makes DRV all ⊥ exactly if chip-select was low. -/
def Obligations.ResetFromAnyState : Prop :=
  ∀ (s : State), s.cfg.wf = true → s.rst = 1 →
    ∃ t, step s = .next t ∧ (∀ p : Pins, p.rst = 1 → cstep p s = .next t) ∧
      t = { s with
        prev := s.cfg.prevReset, cur := 0, ind := 0, mstate := .idle, w := 0, pos := .bStart, ph := 0, fault := 0, fcode := 0,
        trace := [], drv := t.drv } ∧
      ((outputs s).csN = 0 → ∀ a, Memory.read t.drv a = none) ∧ ((outputs s).csN = 1 → t.drv = s.drv)

/-- 10_state.md R27: the registers and the outputs after reset. (CFG, the draws and the port `rst` of State.reset are the model's, logs 2, 3, 5, and not in it.) -/
def Obligations.RegistersAfterReset : Prop :=
  State.reset.prev = 1 ∧ State.reset.cur = 0 ∧ State.reset.ind = 0 ∧ State.reset.mstate = .idle ∧ State.reset.w = 0x0000 ∧
    State.reset.pos = .bStart ∧ State.reset.ph = 0 ∧ State.reset.fault = 0 ∧ State.reset.fcode = 0 ∧ State.reset.trace = [] ∧
    outputs State.reset = ⟨1, 0, 0, 0, 0, 0, 0, 0⟩

/-! ### The step and the position table -/

/-- 43_loop.md R150, R154: a step of a ready block is the operation of its position and then the move on; in a frame position the operation is the frame in `W`
(the model's reading, log 7); at `B_START` only the move. A frame placed by `withFetchWord` is the one the next step runs (log 10). -/
def Obligations.StepRunsTheOperation : Prop :=
  (∀ (s : State) (i : Instr), Ready s → fetch s = some i → step s = andMoveOn s.pos (exec i s)) ∧
    (∀ s : State, Ready s → s.pos = .bStart → step s = .next { s with pos := .bInit 0, w := frameWord s.cfg.regShutdown s.cfg.valStandby }) ∧
    (∀ s : State, s.pos.isFrame = true → fetch s = some (decodeFrame s.cfg s.w)) ∧
    (∀ (s : State) (n w : Nat), Ready s →
      Ready (s.withFetchWord n w) ∧ fetch (s.withFetchWord n w) = some (decodeFrame s.cfg (BitVec.ofNat 16 w)))

/-- 43_loop.md R154, R162: a step that does not fail leaves the position for its successor, emits the events of the table's row, and has the row's effect: PREV
at `T_END`, CUR at `SAMPLE`, IND at `A_IND_ON` and `A_IND_OFF`, MSTATE at `SAMPLE` and `A_RESTORE`, and no other. -/
def Obligations.StepFollowsThePositionTable : Prop :=
  ∀ (s t : State), Ready s → (∀ w, word s.cfg s.pos = some w → s.w = w) → step s = .next t → t.fault = 0 →
    t.pos = successor s.cfg (edge t.cur s.prev) s.pos ∧ t.ph = 0 ∧ (∀ w, word s.cfg t.pos = some w → t.w = w) ∧
      t.trace = s.trace ++ tableEvents s.cfg t.cur s.pos ∧
      t.prev = (if s.pos = .tEnd then s.cur else s.prev) ∧ (s.pos ≠ .sample → t.cur = s.cur) ∧
      t.ind = (if s.pos = .aIndOn then 1 else if s.pos = .aIndOff then 0 else s.ind) ∧
      t.mstate =
        (if s.pos = .sample ∧ edge t.cur s.prev = true then .alerted else if s.pos = .aRestore then .idle else s.mstate) ∧
      t.fcode = s.fcode ∧ t.cfg = s.cfg ∧ t.rst = s.rst

/-- 10_state.md R12 to R15, R26: which operations may write PREV, CUR, IND and MSTATE; none writes CFG. -/
def Obligations.RegisterWriters : Prop :=
  ∀ (i : Instr) (s t : State), exec i s = .next t →
    (t.prev ≠ s.prev → i ∈ ([.tend, .tick, .iter] : List Instr)) ∧ (t.cur ≠ s.cur → i ∈ ([.sample, .tick, .iter] : List Instr)) ∧
      (t.ind ≠ s.ind → i ∈ ([.indSet, .indClr, .alert, .tick, .iter] : List Instr)) ∧
      (t.mstate ≠ s.mstate → i ∈ ([.sample, .alert, .tick, .iter] : List Instr)) ∧ t.cfg = s.cfg ∧ t.rst = s.rst

/-- 42_monitor.md R135, 70_reset_and_hazards.md R202, R203: outside `SAMPLE` the block is deaf: what the sensor will answer changes nothing in the step. -/
def Obligations.DeafOutsideSample : Prop :=
  ∀ (s t : State) (ds : List SensorDraw) (n : Nat), s.pos ≠ .sample → step s = .next t →
    step (withSensor ds n s) = .next (withSensor ds n t)

/-- 93_implementation_defined.md U12: under a CFG that breaks a constraint no step is defined, at either level, and none is launched. That every launch is
refused, of a well-formed CFG too, while the old CFG is ill-formed is the model's choice: its first edge is under the old CFG (logs 16, 20). -/
def Obligations.IllFormedConfigRefused : Prop :=
  (∀ (s : State), s.cfg.wf = false →
    (∀ i : Instr, exec i s = .refused .badConfig) ∧ step s = .refused .badConfig ∧ (∀ p : Pins, cstep p s = .refused .badConfig) ∧
      ∀ c : Cfg, launch c s = .refused .badConfig) ∧
    ∀ (c : Cfg) (s : State), c.wf = false → launch c s = .refused .badConfig ∧ setCfg c s = .refused .badConfig

/-! ### Invariants -/

/-- The invariants hold after reset, and after the host's launch or relaunch with any well-formed CFG, from any state whose DRV is canonical (60_exceptions.md R187,
70_reset_and_hazards.md R192): every register at its reset value under the new CFG, DRV all ⊥ exactly if chip-select was low before. (That CFG changes between two
edges is the model's choice, log 20.) -/
def Obligations.InvariantsAfterReset : Prop :=
  EventInv State.reset ∧ TraceInv State.reset ∧ CycleTraceInv State.reset ∧
    ∀ (c : Cfg) (s : State), s.cfg.wf = true → c.wf = true → Memory.wf s.drv = true →
      ∃ t, launch c s = .next t ∧ EventInv t ∧ TraceInv t ∧ CycleTraceInv t ∧
        t = { State.reset with cfg := c, prev := c.prevReset, drv := t.drv, env := s.env } ∧
        ((outputs s).csN = 0 → ∀ a, Memory.read t.drv a = none) ∧ ((outputs s).csN = 1 → t.drv = s.drv)

/-- 10_state.md R16, R18, R19, R28 and the canonical form of DRV: every event-level step keeps them. -/
def Obligations.StepKeepsTheInvariant : Prop :=
  ∀ (s t : State), EventInv s → step s = .next t → EventInv t

/-- 10_state.md R16, R18, R19, R28: every clock edge keeps them, under any input. -/
def Obligations.ClockEdgeKeepsTheInvariant : Prop :=
  ∀ (s t : State) (p : Pins), Inv s → cstep p s = .next t → Inv t

/-- 10_state.md R18: PH never overflows its width. -/
def Obligations.PhaseFitsItsWidth : Prop :=
  ∀ (c : Cfg) (p : Pos) (n : Nat), c.wf = true → p.wf c = true → n < len c p → n < 2 ^ phWidth c

/-- 40_framer.md R82, 60_exceptions.md R174: every step keeps the chip-select discipline of the trace: each frame is `CS(0)`, two `TX`, `CS(1)` with nothing between,
and nothing follows a failure. -/
def Obligations.StepKeepsChipSelectDiscipline : Prop :=
  ∀ (s t : State), TraceInv s → step s = .next t → TraceInv t

/-- 40_framer.md R82, R101, R103, 43_loop.md R161: at every clock edge, under any input, the trace stands where the wires stand: in a frame after `CS(0)`, after the first byte from
the 8th rising edge of `sclk`, after the second from the 16th, between frames from the end of the chip-select window; and a cut frame has no byte on it (log 13). -/
def Obligations.ClockEdgeKeepsChipSelectDiscipline : Prop :=
  ∀ (s t : State) (p : Pins), Inv s → CycleTraceInv s → cstep p s = .next t → CycleTraceInv t

/-! ### Whole runs -/

/-- 43_loop.md R154: the alert sequence is what the sequencer does from `A_IND_ON` through `A_RESTORE`, failing or not. -/
def Obligations.AlertIsTheSequencersRun : Prop :=
  ∀ (s : State), Ready s → s.pos = .aIndOn → Host.Core.run Sys2Proof.core (alertPath s.cfg).length s = exec .alert s

/-- 43_loop.md R151, R154, 70_reset_and_hazards.md R193: boot is what the sequencer does from `B_START` through `B_STATUS`, failing or not. -/
def Obligations.BootIsTheSequencersRun : Prop :=
  ∀ (s : State), Ready s → s.pos = .bStart → Host.Core.run Sys2Proof.core (1 + bootPath.length) s = exec .boot s

/-- 43_loop.md R152, R154: an iteration is what the sequencer does from `SAMPLE` until it is at `SAMPLE` again, failing or not. -/
def Obligations.IterationIsTheSequencersRun : Prop :=
  ∀ (s : State), Ready s → s.pos = .sample → s.mstate = .idle →
    Host.Core.run Sys2Proof.core
        (3 + if s.env.drawSensor.1.err = 0 ∧ edge s.env.drawSensor.1.val s.prev = true then (alertPath s.cfg).length else 0) s =
      exec .iter s

/-- 42_monitor.md R136, 43_loop.md R160: over any samples, an alert sequence runs in exactly the ticks whose sample is 1 after a sample 0, and the run is at a tick
boundary again. -/
def Obligations.AlertsAreTheRisingEdges : Prop :=
  ∀ (vs : List Bit) (s : State), TickBoundary s → SensorGives vs s.env →
    BusOk s.cfg (alertFrames s.cfg * risingEdges s.prev vs) s.env →
    ∃ t, iterate vs.length s = .next t ∧ TickBoundary t ∧ t.prev = vs.getLastD s.prev ∧
      t.trace = s.trace ++ iterEvents s.cfg s.prev vs ∧
      t.trace.count (.ind 1) = s.trace.count (.ind 1) + risingEdges s.prev vs

/-- 42_monitor.md R137: with PREV = 1, as after reset, a sensor that stays high raises no alert, whatever the bus would answer. -/
def Obligations.HighSensorAtBootRaisesNoAlert : Prop :=
  ∀ (n : Nat) (s : State), TickBoundary s → s.prev = 1 → SensorGives (List.replicate n 1) s.env →
    ∃ t, iterate n s = .next t ∧ TickBoundary t ∧ t.prev = 1 ∧ t.ind = 0 ∧ t.drv = s.drv ∧
      t.trace.count (.ind 1) = s.trace.count (.ind 1)

/-! ### The cycle level -/

/-- 43_loop.md R161, 40_framer.md R103: running the circuit through one position, under waveforms that stand for the event level's draws, gives exactly the event-level
step: the same registers, DRV and trace (`cycleView` is log 13; the draws themselves are pins at the cycle level). -/
def Obligations.CircuitRefinesTheEventLevel : Prop :=
  ∀ (s t : State) (ps : List Pins), Ready s → step s = .next t → ps.length = len s.cfg s.pos → (∀ p ∈ ps, p.rst = 0) →
    (s.pos.isFrame = true → failsAt s.cfg (busDrawOf ps) = failsAt s.cfg s.env.drawBus.1) →
    (s.pos = .sample → ∀ p ∈ ps, sensorDrawOf p = s.env.drawSensor.1) →
    crun ps (cycleView s) = .next (cycleView { t with env := s.env })

/-- 40_framer.md R101, R105: in a frame position that is not cut, after `n` clock edges PH is `n`, the first byte is on the trace from the 8th rising edge of `sclk`, the second from
the 16th, `CS(1)` from the end of the chip-select window, and DRV latches there and not before. -/
def Obligations.FrameEventsAtTheirEdges : Prop :=
  ∀ (s : State) (ps : List Pins), Running s → s.pos.isFrame = true → s.ph = 0 → (∀ p ∈ ps, p.rst = 0) →
    failsAt s.cfg (busDrawOf ps) = none → ps.length < lenFrame s.cfg →
    crun ps s = .next
      { s with
        ph := ps.length
        drv := if ps.length < csEnd s.cfg then s.drv else latchWord s
        trace := s.trace ++ (if ps.length < s.cfg.tLead + 15 * s.cfg.tHalf then [] else [.tx (frameReg s.w)]) ++
          (if ps.length < s.cfg.tLead + 31 * s.cfg.tHalf then [] else [.tx (frameVal s.w)]) ++
          (if ps.length < csEnd s.cfg then [] else [.cs 1]) }

/-- 40_framer.md R102, 43_loop.md R158, 93_implementation_defined.md U16: `bus_err` counts only while `cs_n = 0` and the sensor pins only at `SAMPLE`. -/
def Obligations.InputsIgnoredOutsideTheirWindow : Prop :=
  ∀ (p q : Pins) (s : State), p.rst = q.rst → ((outputs s).csN = 0 → p.busErr = q.busErr) →
    (s.pos = .sample → p.sensorIn = q.sensorIn ∧ p.sensorErr = q.sensorErr) → cstep p s = cstep q s

/-- 42_monitor.md R139, 43_loop.md R156: the cycle counts of the alert sequence, of boot and of a tick without alert. -/
def Obligations.CycleCounts : Prop :=
  ∀ (c : Cfg),
    cycles c (alertPath c) =
        2 + ((List.range c.nSteps).map fun n => 8 * lenFrame c + c.dwellCycles n).sum + 1 + 8 * lenFrame c + 1 ∧
      cycles c (.bStart :: bootPath) = 1 + 14 * lenFrame c + 1 ∧ cycles c [.sample, .tEnd, .sleep] = 2 + c.pollCycles ∧
      lenFrame c = c.tLead + 32 * c.tHalf + c.tTrail + c.tGap
end

