-- ==== Sys2Proof/Laws/Memory.lean ====
section
/-! SUPPORT. The ghost memory DRV: read after write, and the canonical form is kept by every memory operation. -/

namespace Sys2Proof.Machine

theorem toNat_eq_iff (a b : Byte) : a.toNat = b.toNat ↔ b = a := by
  rw [BitVec.toNat_inj, eq_comm]

/-- Reading after an insertion, on any list. -/
theorem read_insert (m : Memory) (a b : Byte) (v : Byte) :
    Memory.read (Memory.insert m a.toNat v) b = if b = a then some v else Memory.read m b := by
  induction m with
  | nil => simp only [Memory.insert, Memory.read, toNat_eq_iff]
  | cons x m ih =>
    obtain ⟨k, y⟩ := x
    by_cases h1 : a.toNat < k
    · simp only [Memory.insert, if_pos h1, Memory.read, toNat_eq_iff]
    by_cases h2 : a.toNat = k
    · subst h2
      simp only [Memory.insert, if_neg h1, if_true, Memory.read, toNat_eq_iff]
      split_ifs <;> rfl
    · simp only [Memory.insert, if_neg h1, if_neg h2, Memory.read, ih]
      by_cases hb : b = a
      · subst hb; simp [Ne.symm h2]
      · simp [hb]

/-- A written entry reads back. -/
@[simp] theorem read_write_same (m : Memory) (a v : Byte) : Memory.read (Memory.write m a v) a = some v := by
  simp [Memory.write, read_insert]

/-- No other entry changes. -/
theorem read_write_other (m : Memory) (a b v : Byte) (h : b ≠ a) :
    Memory.read (Memory.write m a v) b = Memory.read m b := by
  simp [Memory.write, read_insert, h]

theorem risingFrom_insert (m : Memory) (lo a : Nat) (v : Byte) (hm : Memory.risingFrom lo m = true) (hlo : lo ≤ a)
    (ha : a < 256) : Memory.risingFrom lo (Memory.insert m a v) = true := by
  induction m generalizing lo with
  | nil => simp [Memory.insert, Memory.risingFrom, hlo, ha]
  | cons x m ih =>
    obtain ⟨k, y⟩ := x
    simp only [Memory.risingFrom, Bool.and_eq_true, decide_eq_true_eq] at hm
    obtain ⟨⟨h1, h2⟩, h3⟩ := hm
    unfold Memory.insert
    split_ifs with hlt heq
    · simp [Memory.risingFrom, hlo, ha, h2, h3]; omega
    · subst heq; simp [Memory.risingFrom, h1, h2, h3]
    · simp only [Memory.risingFrom, Bool.and_eq_true, decide_eq_true_eq]
      exact ⟨⟨h1, h2⟩, ih (k + 1) h3 (by omega)⟩

/-- A write keeps the canonical form. -/
@[simp] theorem wf_write (m : Memory) (a v : Byte) (h : Memory.wf m = true) : Memory.wf (Memory.write m a v) = true :=
  risingFrom_insert m 0 a.toNat v h (Nat.zero_le _) a.isLt

/-- Forgetting every entry keeps the canonical form. -/
@[simp] theorem wf_unknown : Memory.wf Memory.unknown = true := rfl

@[simp] theorem read_unknown (a : Byte) : Memory.read Memory.unknown a = none := rfl

/-- The chip's latch keeps the canonical form. -/
theorem wf_chipLatch (c : Cfg) (r v : Byte) (m : Memory) (h : Memory.wf m = true) : Memory.wf (chipLatch c r v m) = true := by
  unfold chipLatch; split_ifs <;> simp [h]

/-- The memory after reset has the canonical form. -/
theorem wf_reset : Memory.wf State.reset.drv = true := rfl

end Sys2Proof.Machine
end

