-- ==== Sys2Proof/Laws/State.lean ====
section
/-! SUPPORT. One lemma per field of State for each named update, true by rfl, so that no proof unfolds a record update. -/

namespace Sys2Proof.Machine

@[simp] theorem emit_cfg (e : Event) (s : State) : (emit e s).cfg = s.cfg := rfl
@[simp] theorem emit_prev (e : Event) (s : State) : (emit e s).prev = s.prev := rfl
@[simp] theorem emit_cur (e : Event) (s : State) : (emit e s).cur = s.cur := rfl
@[simp] theorem emit_ind (e : Event) (s : State) : (emit e s).ind = s.ind := rfl
@[simp] theorem emit_mstate (e : Event) (s : State) : (emit e s).mstate = s.mstate := rfl
@[simp] theorem emit_w (e : Event) (s : State) : (emit e s).w = s.w := rfl
@[simp] theorem emit_pos (e : Event) (s : State) : (emit e s).pos = s.pos := rfl
@[simp] theorem emit_ph (e : Event) (s : State) : (emit e s).ph = s.ph := rfl
@[simp] theorem emit_fault (e : Event) (s : State) : (emit e s).fault = s.fault := rfl
@[simp] theorem emit_fcode (e : Event) (s : State) : (emit e s).fcode = s.fcode := rfl
@[simp] theorem emit_drv (e : Event) (s : State) : (emit e s).drv = s.drv := rfl
@[simp] theorem emit_trace (e : Event) (s : State) : (emit e s).trace = s.trace ++ [e] := rfl
@[simp] theorem emit_rst (e : Event) (s : State) : (emit e s).rst = s.rst := rfl
@[simp] theorem emit_env (e : Event) (s : State) : (emit e s).env = s.env := rfl

@[simp] theorem raise_cfg (c : Cause) (s : State) : (raise c s).cfg = s.cfg := rfl
@[simp] theorem raise_prev (c : Cause) (s : State) : (raise c s).prev = s.prev := rfl
@[simp] theorem raise_cur (c : Cause) (s : State) : (raise c s).cur = s.cur := rfl
@[simp] theorem raise_ind (c : Cause) (s : State) : (raise c s).ind = s.ind := rfl
@[simp] theorem raise_mstate (c : Cause) (s : State) : (raise c s).mstate = s.mstate := rfl
@[simp] theorem raise_w (c : Cause) (s : State) : (raise c s).w = s.w := rfl
@[simp] theorem raise_pos (c : Cause) (s : State) : (raise c s).pos = s.pos := rfl
@[simp] theorem raise_ph (c : Cause) (s : State) : (raise c s).ph = s.ph := rfl
@[simp] theorem raise_fault (c : Cause) (s : State) : (raise c s).fault = 1 := rfl
@[simp] theorem raise_fcode (c : Cause) (s : State) : (raise c s).fcode = c.code := rfl
@[simp] theorem raise_drv (c : Cause) (s : State) : (raise c s).drv = s.drv := rfl
@[simp] theorem raise_trace (c : Cause) (s : State) : (raise c s).trace = s.trace ++ [.fault c] := rfl
@[simp] theorem raise_rst (c : Cause) (s : State) : (raise c s).rst = s.rst := rfl
@[simp] theorem raise_env (c : Cause) (s : State) : (raise c s).env = s.env := rfl

@[simp] theorem raiseBus_cfg (n : Nat) (s : State) : (raiseBus n s).cfg = s.cfg := rfl
@[simp] theorem raiseBus_prev (n : Nat) (s : State) : (raiseBus n s).prev = s.prev := rfl
@[simp] theorem raiseBus_cur (n : Nat) (s : State) : (raiseBus n s).cur = s.cur := rfl
@[simp] theorem raiseBus_ind (n : Nat) (s : State) : (raiseBus n s).ind = s.ind := rfl
@[simp] theorem raiseBus_mstate (n : Nat) (s : State) : (raiseBus n s).mstate = s.mstate := rfl
@[simp] theorem raiseBus_w (n : Nat) (s : State) : (raiseBus n s).w = s.w := rfl
@[simp] theorem raiseBus_pos (n : Nat) (s : State) : (raiseBus n s).pos = s.pos := rfl
@[simp] theorem raiseBus_ph (n : Nat) (s : State) : (raiseBus n s).ph = n := rfl
@[simp] theorem raiseBus_fault (n : Nat) (s : State) : (raiseBus n s).fault = 1 := rfl
@[simp] theorem raiseBus_fcode (n : Nat) (s : State) : (raiseBus n s).fcode = 1 := rfl
@[simp] theorem raiseBus_drv (n : Nat) (s : State) : (raiseBus n s).drv = Memory.unknown := rfl
@[simp] theorem raiseBus_trace (n : Nat) (s : State) : (raiseBus n s).trace = s.trace ++ [.fault .bus] := rfl
@[simp] theorem raiseBus_rst (n : Nat) (s : State) : (raiseBus n s).rst = s.rst := rfl
@[simp] theorem raiseBus_env (n : Nat) (s : State) : (raiseBus n s).env = s.env := rfl

@[simp] theorem openFrame_cfg (r v : Byte) (s : State) : (openFrame r v s).cfg = s.cfg := rfl
@[simp] theorem openFrame_prev (r v : Byte) (s : State) : (openFrame r v s).prev = s.prev := rfl
@[simp] theorem openFrame_cur (r v : Byte) (s : State) : (openFrame r v s).cur = s.cur := rfl
@[simp] theorem openFrame_ind (r v : Byte) (s : State) : (openFrame r v s).ind = s.ind := rfl
@[simp] theorem openFrame_mstate (r v : Byte) (s : State) : (openFrame r v s).mstate = s.mstate := rfl
@[simp] theorem openFrame_w (r v : Byte) (s : State) : (openFrame r v s).w = frameWord r v := rfl
@[simp] theorem openFrame_pos (r v : Byte) (s : State) : (openFrame r v s).pos = s.pos := rfl
@[simp] theorem openFrame_ph (r v : Byte) (s : State) : (openFrame r v s).ph = 0 := rfl
@[simp] theorem openFrame_fault (r v : Byte) (s : State) : (openFrame r v s).fault = s.fault := rfl
@[simp] theorem openFrame_fcode (r v : Byte) (s : State) : (openFrame r v s).fcode = s.fcode := rfl
@[simp] theorem openFrame_drv (r v : Byte) (s : State) : (openFrame r v s).drv = s.drv := rfl
@[simp] theorem openFrame_trace (r v : Byte) (s : State) : (openFrame r v s).trace = s.trace ++ [.cs 0] := rfl
@[simp] theorem openFrame_rst (r v : Byte) (s : State) : (openFrame r v s).rst = s.rst := rfl
@[simp] theorem openFrame_env (r v : Byte) (s : State) : (openFrame r v s).env = s.env.drawBus.2 := rfl

@[simp] theorem closeFrame_cfg (r v : Byte) (f : Memory → Memory) (s : State) : (closeFrame r v f s).cfg = s.cfg := rfl
@[simp] theorem closeFrame_prev (r v : Byte) (f : Memory → Memory) (s : State) : (closeFrame r v f s).prev = s.prev := rfl
@[simp] theorem closeFrame_cur (r v : Byte) (f : Memory → Memory) (s : State) : (closeFrame r v f s).cur = s.cur := rfl
@[simp] theorem closeFrame_ind (r v : Byte) (f : Memory → Memory) (s : State) : (closeFrame r v f s).ind = s.ind := rfl
@[simp] theorem closeFrame_mstate (r v : Byte) (f : Memory → Memory) (s : State) : (closeFrame r v f s).mstate = s.mstate := rfl
@[simp] theorem closeFrame_w (r v : Byte) (f : Memory → Memory) (s : State) : (closeFrame r v f s).w = s.w := rfl
@[simp] theorem closeFrame_pos (r v : Byte) (f : Memory → Memory) (s : State) : (closeFrame r v f s).pos = s.pos := rfl
@[simp] theorem closeFrame_ph (r v : Byte) (f : Memory → Memory) (s : State) : (closeFrame r v f s).ph = s.ph := rfl
@[simp] theorem closeFrame_fault (r v : Byte) (f : Memory → Memory) (s : State) : (closeFrame r v f s).fault = s.fault := rfl
@[simp] theorem closeFrame_fcode (r v : Byte) (f : Memory → Memory) (s : State) : (closeFrame r v f s).fcode = s.fcode := rfl
@[simp] theorem closeFrame_drv (r v : Byte) (f : Memory → Memory) (s : State) : (closeFrame r v f s).drv = f s.drv := rfl
@[simp] theorem closeFrame_trace (r v : Byte) (f : Memory → Memory) (s : State) : (closeFrame r v f s).trace = s.trace ++ [.tx r, .tx v, .cs 1] := rfl
@[simp] theorem closeFrame_rst (r v : Byte) (f : Memory → Memory) (s : State) : (closeFrame r v f s).rst = s.rst := rfl
@[simp] theorem closeFrame_env (r v : Byte) (f : Memory → Memory) (s : State) : (closeFrame r v f s).env = s.env := rfl

@[simp] theorem enter_cfg (p : Pos) (s : State) : (enter p s).cfg = s.cfg := rfl
@[simp] theorem enter_prev (p : Pos) (s : State) : (enter p s).prev = s.prev := rfl
@[simp] theorem enter_cur (p : Pos) (s : State) : (enter p s).cur = s.cur := rfl
@[simp] theorem enter_ind (p : Pos) (s : State) : (enter p s).ind = s.ind := rfl
@[simp] theorem enter_mstate (p : Pos) (s : State) : (enter p s).mstate = s.mstate := rfl
@[simp] theorem enter_w (p : Pos) (s : State) : (enter p s).w = (word s.cfg p).getD s.w := rfl
@[simp] theorem enter_pos (p : Pos) (s : State) : (enter p s).pos = p := rfl
@[simp] theorem enter_ph (p : Pos) (s : State) : (enter p s).ph = 0 := rfl
@[simp] theorem enter_fault (p : Pos) (s : State) : (enter p s).fault = s.fault := rfl
@[simp] theorem enter_fcode (p : Pos) (s : State) : (enter p s).fcode = s.fcode := rfl
@[simp] theorem enter_drv (p : Pos) (s : State) : (enter p s).drv = s.drv := rfl
@[simp] theorem enter_trace (p : Pos) (s : State) : (enter p s).trace = s.trace := rfl
@[simp] theorem enter_rst (p : Pos) (s : State) : (enter p s).rst = s.rst := rfl
@[simp] theorem enter_env (p : Pos) (s : State) : (enter p s).env = s.env := rfl

@[simp] theorem leaveAlert_cfg (s : State) : (leaveAlert s).cfg = s.cfg := rfl
@[simp] theorem leaveAlert_prev (s : State) : (leaveAlert s).prev = s.prev := rfl
@[simp] theorem leaveAlert_cur (s : State) : (leaveAlert s).cur = s.cur := rfl
@[simp] theorem leaveAlert_ind (s : State) : (leaveAlert s).ind = s.ind := rfl
@[simp] theorem leaveAlert_mstate (s : State) : (leaveAlert s).mstate = .idle := rfl
@[simp] theorem leaveAlert_w (s : State) : (leaveAlert s).w = s.w := rfl
@[simp] theorem leaveAlert_pos (s : State) : (leaveAlert s).pos = s.pos := rfl
@[simp] theorem leaveAlert_ph (s : State) : (leaveAlert s).ph = s.ph := rfl
@[simp] theorem leaveAlert_fault (s : State) : (leaveAlert s).fault = s.fault := rfl
@[simp] theorem leaveAlert_fcode (s : State) : (leaveAlert s).fcode = s.fcode := rfl
@[simp] theorem leaveAlert_drv (s : State) : (leaveAlert s).drv = s.drv := rfl
@[simp] theorem leaveAlert_trace (s : State) : (leaveAlert s).trace = s.trace := rfl
@[simp] theorem leaveAlert_rst (s : State) : (leaveAlert s).rst = s.rst := rfl
@[simp] theorem leaveAlert_env (s : State) : (leaveAlert s).env = s.env := rfl

@[simp] theorem tendOp_cfg (s : State) : (tendOp s).cfg = s.cfg := rfl
@[simp] theorem tendOp_prev (s : State) : (tendOp s).prev = s.cur := rfl
@[simp] theorem tendOp_cur (s : State) : (tendOp s).cur = s.cur := rfl
@[simp] theorem tendOp_ind (s : State) : (tendOp s).ind = s.ind := rfl
@[simp] theorem tendOp_mstate (s : State) : (tendOp s).mstate = s.mstate := rfl
@[simp] theorem tendOp_w (s : State) : (tendOp s).w = s.w := rfl
@[simp] theorem tendOp_pos (s : State) : (tendOp s).pos = .sleep := rfl
@[simp] theorem tendOp_ph (s : State) : (tendOp s).ph = s.ph := rfl
@[simp] theorem tendOp_fault (s : State) : (tendOp s).fault = s.fault := rfl
@[simp] theorem tendOp_fcode (s : State) : (tendOp s).fcode = s.fcode := rfl
@[simp] theorem tendOp_drv (s : State) : (tendOp s).drv = s.drv := rfl
@[simp] theorem tendOp_trace (s : State) : (tendOp s).trace = s.trace := rfl
@[simp] theorem tendOp_rst (s : State) : (tendOp s).rst = s.rst := rfl
@[simp] theorem tendOp_env (s : State) : (tendOp s).env = s.env := rfl

@[simp] theorem indSetOp_cfg (s : State) : (indSetOp s).cfg = s.cfg := rfl
@[simp] theorem indSetOp_prev (s : State) : (indSetOp s).prev = s.prev := rfl
@[simp] theorem indSetOp_cur (s : State) : (indSetOp s).cur = s.cur := rfl
@[simp] theorem indSetOp_ind (s : State) : (indSetOp s).ind = 1 := rfl
@[simp] theorem indSetOp_mstate (s : State) : (indSetOp s).mstate = s.mstate := rfl
@[simp] theorem indSetOp_w (s : State) : (indSetOp s).w = s.w := rfl
@[simp] theorem indSetOp_pos (s : State) : (indSetOp s).pos = s.pos := rfl
@[simp] theorem indSetOp_ph (s : State) : (indSetOp s).ph = s.ph := rfl
@[simp] theorem indSetOp_fault (s : State) : (indSetOp s).fault = s.fault := rfl
@[simp] theorem indSetOp_fcode (s : State) : (indSetOp s).fcode = s.fcode := rfl
@[simp] theorem indSetOp_drv (s : State) : (indSetOp s).drv = s.drv := rfl
@[simp] theorem indSetOp_trace (s : State) : (indSetOp s).trace = s.trace ++ [.ind 1] := rfl
@[simp] theorem indSetOp_rst (s : State) : (indSetOp s).rst = s.rst := rfl
@[simp] theorem indSetOp_env (s : State) : (indSetOp s).env = s.env := rfl

@[simp] theorem indClrOp_cfg (s : State) : (indClrOp s).cfg = s.cfg := rfl
@[simp] theorem indClrOp_prev (s : State) : (indClrOp s).prev = s.prev := rfl
@[simp] theorem indClrOp_cur (s : State) : (indClrOp s).cur = s.cur := rfl
@[simp] theorem indClrOp_ind (s : State) : (indClrOp s).ind = 0 := rfl
@[simp] theorem indClrOp_mstate (s : State) : (indClrOp s).mstate = s.mstate := rfl
@[simp] theorem indClrOp_w (s : State) : (indClrOp s).w = s.w := rfl
@[simp] theorem indClrOp_pos (s : State) : (indClrOp s).pos = s.pos := rfl
@[simp] theorem indClrOp_ph (s : State) : (indClrOp s).ph = s.ph := rfl
@[simp] theorem indClrOp_fault (s : State) : (indClrOp s).fault = s.fault := rfl
@[simp] theorem indClrOp_fcode (s : State) : (indClrOp s).fcode = s.fcode := rfl
@[simp] theorem indClrOp_drv (s : State) : (indClrOp s).drv = s.drv := rfl
@[simp] theorem indClrOp_trace (s : State) : (indClrOp s).trace = s.trace ++ [.ind 0] := rfl
@[simp] theorem indClrOp_rst (s : State) : (indClrOp s).rst = s.rst := rfl
@[simp] theorem indClrOp_env (s : State) : (indClrOp s).env = s.env := rfl

@[simp] theorem statusOp_cfg (m : Msg) (s : State) : (statusOp m s).cfg = s.cfg := rfl
@[simp] theorem statusOp_prev (m : Msg) (s : State) : (statusOp m s).prev = s.prev := rfl
@[simp] theorem statusOp_cur (m : Msg) (s : State) : (statusOp m s).cur = s.cur := rfl
@[simp] theorem statusOp_ind (m : Msg) (s : State) : (statusOp m s).ind = s.ind := rfl
@[simp] theorem statusOp_mstate (m : Msg) (s : State) : (statusOp m s).mstate = s.mstate := rfl
@[simp] theorem statusOp_w (m : Msg) (s : State) : (statusOp m s).w = s.w := rfl
@[simp] theorem statusOp_pos (m : Msg) (s : State) : (statusOp m s).pos = s.pos := rfl
@[simp] theorem statusOp_ph (m : Msg) (s : State) : (statusOp m s).ph = s.ph := rfl
@[simp] theorem statusOp_fault (m : Msg) (s : State) : (statusOp m s).fault = s.fault := rfl
@[simp] theorem statusOp_fcode (m : Msg) (s : State) : (statusOp m s).fcode = s.fcode := rfl
@[simp] theorem statusOp_drv (m : Msg) (s : State) : (statusOp m s).drv = s.drv := rfl
@[simp] theorem statusOp_trace (m : Msg) (s : State) : (statusOp m s).trace = s.trace ++ [.sd m] := rfl
@[simp] theorem statusOp_rst (m : Msg) (s : State) : (statusOp m s).rst = s.rst := rfl
@[simp] theorem statusOp_env (m : Msg) (s : State) : (statusOp m s).env = s.env := rfl

@[simp] theorem dwellOp_cfg (n : Nat) (s : State) : (dwellOp n s).cfg = s.cfg := rfl
@[simp] theorem dwellOp_prev (n : Nat) (s : State) : (dwellOp n s).prev = s.prev := rfl
@[simp] theorem dwellOp_cur (n : Nat) (s : State) : (dwellOp n s).cur = s.cur := rfl
@[simp] theorem dwellOp_ind (n : Nat) (s : State) : (dwellOp n s).ind = s.ind := rfl
@[simp] theorem dwellOp_mstate (n : Nat) (s : State) : (dwellOp n s).mstate = s.mstate := rfl
@[simp] theorem dwellOp_w (n : Nat) (s : State) : (dwellOp n s).w = s.w := rfl
@[simp] theorem dwellOp_pos (n : Nat) (s : State) : (dwellOp n s).pos = s.pos := rfl
@[simp] theorem dwellOp_ph (n : Nat) (s : State) : (dwellOp n s).ph = s.ph := rfl
@[simp] theorem dwellOp_fault (n : Nat) (s : State) : (dwellOp n s).fault = s.fault := rfl
@[simp] theorem dwellOp_fcode (n : Nat) (s : State) : (dwellOp n s).fcode = s.fcode := rfl
@[simp] theorem dwellOp_drv (n : Nat) (s : State) : (dwellOp n s).drv = s.drv := rfl
@[simp] theorem dwellOp_trace (n : Nat) (s : State) : (dwellOp n s).trace = s.trace ++ [.dwell n] := rfl
@[simp] theorem dwellOp_rst (n : Nat) (s : State) : (dwellOp n s).rst = s.rst := rfl
@[simp] theorem dwellOp_env (n : Nat) (s : State) : (dwellOp n s).env = s.env := rfl

@[simp] theorem sleepOp_cfg (s : State) : (sleepOp s).cfg = s.cfg := rfl
@[simp] theorem sleepOp_prev (s : State) : (sleepOp s).prev = s.prev := rfl
@[simp] theorem sleepOp_cur (s : State) : (sleepOp s).cur = s.cur := rfl
@[simp] theorem sleepOp_ind (s : State) : (sleepOp s).ind = s.ind := rfl
@[simp] theorem sleepOp_mstate (s : State) : (sleepOp s).mstate = s.mstate := rfl
@[simp] theorem sleepOp_w (s : State) : (sleepOp s).w = s.w := rfl
@[simp] theorem sleepOp_pos (s : State) : (sleepOp s).pos = .sample := rfl
@[simp] theorem sleepOp_ph (s : State) : (sleepOp s).ph = s.ph := rfl
@[simp] theorem sleepOp_fault (s : State) : (sleepOp s).fault = s.fault := rfl
@[simp] theorem sleepOp_fcode (s : State) : (sleepOp s).fcode = s.fcode := rfl
@[simp] theorem sleepOp_drv (s : State) : (sleepOp s).drv = s.drv := rfl
@[simp] theorem sleepOp_trace (s : State) : (sleepOp s).trace = s.trace ++ [.sleep] := rfl
@[simp] theorem sleepOp_rst (s : State) : (sleepOp s).rst = s.rst := rfl
@[simp] theorem sleepOp_env (s : State) : (sleepOp s).env = s.env := rfl

@[simp] theorem resetEdge_cfg (s : State) : (resetEdge s).cfg = s.cfg := rfl
@[simp] theorem resetEdge_prev (s : State) : (resetEdge s).prev = s.cfg.prevReset := rfl
@[simp] theorem resetEdge_cur (s : State) : (resetEdge s).cur = 0 := rfl
@[simp] theorem resetEdge_ind (s : State) : (resetEdge s).ind = 0 := rfl
@[simp] theorem resetEdge_mstate (s : State) : (resetEdge s).mstate = .idle := rfl
@[simp] theorem resetEdge_w (s : State) : (resetEdge s).w = 0 := rfl
@[simp] theorem resetEdge_pos (s : State) : (resetEdge s).pos = .bStart := rfl
@[simp] theorem resetEdge_ph (s : State) : (resetEdge s).ph = 0 := rfl
@[simp] theorem resetEdge_fault (s : State) : (resetEdge s).fault = 0 := rfl
@[simp] theorem resetEdge_fcode (s : State) : (resetEdge s).fcode = 0 := rfl
@[simp] theorem resetEdge_drv (s : State) : (resetEdge s).drv = if (outputs s).csN = 0 then Memory.unknown else s.drv := rfl
@[simp] theorem resetEdge_trace (s : State) : (resetEdge s).trace = [] := rfl
@[simp] theorem resetEdge_rst (s : State) : (resetEdge s).rst = s.rst := rfl
@[simp] theorem resetEdge_env (s : State) : (resetEdge s).env = s.env := rfl

@[simp] theorem setRst_cfg (b : Bit) (s : State) : (setRst b s).cfg = s.cfg := rfl
@[simp] theorem setRst_prev (b : Bit) (s : State) : (setRst b s).prev = s.prev := rfl
@[simp] theorem setRst_cur (b : Bit) (s : State) : (setRst b s).cur = s.cur := rfl
@[simp] theorem setRst_ind (b : Bit) (s : State) : (setRst b s).ind = s.ind := rfl
@[simp] theorem setRst_mstate (b : Bit) (s : State) : (setRst b s).mstate = s.mstate := rfl
@[simp] theorem setRst_w (b : Bit) (s : State) : (setRst b s).w = s.w := rfl
@[simp] theorem setRst_pos (b : Bit) (s : State) : (setRst b s).pos = s.pos := rfl
@[simp] theorem setRst_ph (b : Bit) (s : State) : (setRst b s).ph = s.ph := rfl
@[simp] theorem setRst_fault (b : Bit) (s : State) : (setRst b s).fault = s.fault := rfl
@[simp] theorem setRst_fcode (b : Bit) (s : State) : (setRst b s).fcode = s.fcode := rfl
@[simp] theorem setRst_drv (b : Bit) (s : State) : (setRst b s).drv = s.drv := rfl
@[simp] theorem setRst_trace (b : Bit) (s : State) : (setRst b s).trace = s.trace := rfl
@[simp] theorem setRst_rst (b : Bit) (s : State) : (setRst b s).rst = b := rfl
@[simp] theorem setRst_env (b : Bit) (s : State) : (setRst b s).env = s.env := rfl

@[simp] theorem arrive_cfg (p : Pos) (s : State) : (arrive p s).cfg = s.cfg := rfl
@[simp] theorem arrive_prev (p : Pos) (s : State) : (arrive p s).prev = s.prev := rfl
@[simp] theorem arrive_cur (p : Pos) (s : State) : (arrive p s).cur = s.cur := rfl
@[simp] theorem arrive_ind (p : Pos) (s : State) : (arrive p s).ind = s.ind := rfl
@[simp] theorem arrive_mstate (p : Pos) (s : State) : (arrive p s).mstate = s.mstate := rfl
@[simp] theorem arrive_w (p : Pos) (s : State) : (arrive p s).w = (word s.cfg p).getD s.w := rfl
@[simp] theorem arrive_pos (p : Pos) (s : State) : (arrive p s).pos = p := rfl
@[simp] theorem arrive_ph (p : Pos) (s : State) : (arrive p s).ph = 0 := rfl
@[simp] theorem arrive_fault (p : Pos) (s : State) : (arrive p s).fault = s.fault := rfl
@[simp] theorem arrive_fcode (p : Pos) (s : State) : (arrive p s).fcode = s.fcode := rfl
@[simp] theorem arrive_drv (p : Pos) (s : State) : (arrive p s).drv = s.drv := rfl
@[simp] theorem arrive_trace (p : Pos) (s : State) : (arrive p s).trace = s.trace ++ entryEvents p := rfl
@[simp] theorem arrive_rst (p : Pos) (s : State) : (arrive p s).rst = s.rst := rfl
@[simp] theorem arrive_env (p : Pos) (s : State) : (arrive p s).env = s.env := rfl

@[simp] theorem withdrawBytes_cfg (s : State) : (withdrawBytes s).cfg = s.cfg := rfl
@[simp] theorem withdrawBytes_prev (s : State) : (withdrawBytes s).prev = s.prev := rfl
@[simp] theorem withdrawBytes_cur (s : State) : (withdrawBytes s).cur = s.cur := rfl
@[simp] theorem withdrawBytes_ind (s : State) : (withdrawBytes s).ind = s.ind := rfl
@[simp] theorem withdrawBytes_mstate (s : State) : (withdrawBytes s).mstate = s.mstate := rfl
@[simp] theorem withdrawBytes_w (s : State) : (withdrawBytes s).w = s.w := rfl
@[simp] theorem withdrawBytes_pos (s : State) : (withdrawBytes s).pos = s.pos := rfl
@[simp] theorem withdrawBytes_ph (s : State) : (withdrawBytes s).ph = s.ph := rfl
@[simp] theorem withdrawBytes_fault (s : State) : (withdrawBytes s).fault = s.fault := rfl
@[simp] theorem withdrawBytes_fcode (s : State) : (withdrawBytes s).fcode = s.fcode := rfl
@[simp] theorem withdrawBytes_drv (s : State) : (withdrawBytes s).drv = s.drv := rfl
@[simp] theorem withdrawBytes_rst (s : State) : (withdrawBytes s).rst = s.rst := rfl
@[simp] theorem withdrawBytes_env (s : State) : (withdrawBytes s).env = s.env := rfl
@[simp] theorem withdrawBytes_trace_eq (s : State) : (withdrawBytes s).trace = s.trace.rdropWhile Event.isTx := rfl

end Sys2Proof.Machine
end

