-- ==== Sys2Proof/Laws/Ops.lean ====
section
/-! SUPPORT. For each shared operation, what it can do, said once. -/

namespace Sys2Proof.Machine

theorem fault_cases (s : State) : s.fault = 0 ∨ s.fault = 1 := by
  generalize s.fault = b; revert b; decide

theorem fault_ne_one (s : State) : s.fault ≠ 1 ↔ s.fault = 0 := by
  generalize s.fault = b; revert b; decide

/-! ### Halt -/

@[simp] theorem whenRunning_halted (f : State → State) (s : State) (h : s.fault = 1) : whenRunning f s = s := if_pos h

@[simp] theorem whenRunning_running (f : State → State) (s : State) (h : s.fault = 0) : whenRunning f s = f s :=
  if_neg ((fault_ne_one s).2 h)

@[simp] theorem inPos_halted (p : Pos) (f : State → State) (s : State) (h : s.fault = 1) : inPos p f s = s :=
  whenRunning_halted _ s h

@[simp] theorem inPos_running (p : Pos) (f : State → State) (s : State) (h : s.fault = 0) :
    inPos p f s = f { s with pos := p, ph := 0 } := whenRunning_running _ s h

/-- What an operation does not change, its halting form does not change. -/
theorem whenRunning_keeps {P : State → Prop} {f : State → State} (hf : ∀ s, P s → P (f s)) (s : State) (h : P s) :
    P (whenRunning f s) := by
  unfold whenRunning; split_ifs; exacts [h, hf s h]

theorem inPos_keeps {P : State → Prop} {f : State → State} (p : Pos) (hp : ∀ s, P s → P { s with pos := p, ph := 0 })
    (hf : ∀ s, P s → P (f s)) (s : State) (h : P s) : P (inPos p f s) :=
  whenRunning_keeps (fun s hs => hf _ (hp s hs)) s h

theorem foldl_keeps {α : Type} {P : State → Prop} {f : α → State → State} (hf : ∀ a s, P s → P (f a s)) (l : List α) (s : State)
    (h : P s) : P (l.foldl (fun t a => f a t) s) := by
  induction l generalizing s with
  | nil => exact h
  | cons a l ih => exact ih _ (hf a s h)

theorem forRows_keeps {P : State → Prop} {f : Fin 8 → State → State} (hf : ∀ r s, P s → P (f r s)) (s : State) (h : P s) :
    P (forRows f s) := foldl_keeps hf rows s h

/-! ### The answer of a meaning -/

theorem complete_next (f : State → State) (s : State) (h : s.cfg.wf = true) : complete f s = .next (whenRunning f s) := if_pos h

theorem complete_refused (f : State → State) (s : State) (h : s.cfg.wf = false) : complete f s = .refused .badConfig := by
  simp [complete, h]

theorem complete_running (f : State → State) (s : State) (h : Running s) : complete f s = .next (f s) := by
  rw [complete_next f s h.1, whenRunning_running f s h.2]

/-- A meaning answers a next state only for a well-formed CFG. -/
theorem complete_cases {f : State → State} {s t : State} (h : complete f s = .next t) : s.cfg.wf = true ∧ t = whenRunning f s := by
  unfold complete at h; split_ifs at h with hw
  exact ⟨hw, by cases h; rfl⟩

/-- A handed-on outcome that is a next state came from a next state. -/
theorem onNext_cases {o : Host.Outcome State Fault Refusal} {f : State → Host.Outcome State Fault Refusal} {t : State}
    (h : onNext o f = .next t) : ∃ u, o = .next u ∧ f u = .next t := by
  cases o with
  | next u => exact ⟨u, rfl, h⟩
  | fault r => cases h
  | refused r => cases h

/-! ### One frame -/

theorem sendFrame_ok (r v : Byte) (f : Memory → Memory) (s : State) (h : failsAt s.cfg s.env.drawBus.1 = none) :
    sendFrame r v f s = sentFrame r v (f s.drv) s := by
  simp [sendFrame, h, sentFrame, closeFrame, openFrame, emit]

theorem sendFrame_fail (r v : Byte) (f : Memory → Memory) (s : State) (p : Nat)
    (h : failsAt s.cfg s.env.drawBus.1 = some p) :
    sendFrame r v f s = raiseBus p (openFrame r v s) := by
  simp [sendFrame, h]

/-- A draw fails only inside the chip-select window (40_framer.md R102). -/
theorem failsAt_lt {c : Cfg} {d : BusDraw} {p : Nat} (h : failsAt c d = some p) : p < csEnd c := by
  cases d with
  | quiet => simp [failsAt] at h
  | errAt q => simp only [failsAt, Option.ite_none_right_eq_some, Option.some.injEq] at h; omega

/-- A frame either completes or raises BusFault. -/
theorem sendFrame_cases (r v : Byte) (f : Memory → Memory) (s : State) :
    sendFrame r v f s = sentFrame r v (f s.drv) s ∨
      ∃ p, p < csEnd s.cfg ∧ sendFrame r v f s = raiseBus p (openFrame r v s) := by
  cases h : failsAt s.cfg s.env.drawBus.1 with
  | none => exact .inl (sendFrame_ok r v f s h)
  | some p => exact .inr ⟨p, failsAt_lt h, sendFrame_fail r v f s p h⟩

/-! ### The sensor -/

theorem takeSample_err (d : SensorDraw) (s : State) (h : d.err = 1) : takeSample d s = raise .sensor s := if_pos h

theorem takeSample_ok (v : Bit) (s : State) :
    takeSample ⟨0, v⟩ s =
      { s with
        trace := s.trace ++ [.rd v], cur := v, mstate := if edge v s.prev then .alerted else s.mstate
        pos := sampleTarget (edge v s.prev) } := rfl

/-! ### Frame word -/

@[simp] theorem frameReg_frameWord (r v : Byte) : frameReg (frameWord r v) = r := by
  apply BitVec.eq_of_getLsbD_eq; intro i hi
  simp only [frameReg, frameWord, BitVec.getLsbD_extractLsb', BitVec.getLsbD_append]
  simp [hi]

@[simp] theorem frameVal_frameWord (r v : Byte) : frameVal (frameWord r v) = v := by
  apply BitVec.eq_of_getLsbD_eq; intro i hi
  simp only [frameVal, frameWord, BitVec.getLsbD_extractLsb', BitVec.getLsbD_append]
  simp [hi]

theorem frameWord_fields (w : FrameWord) : frameWord (frameReg w) (frameVal w) = w := by
  apply BitVec.eq_of_getLsbD_eq; intro i hi
  simp only [frameWord, frameReg, frameVal, BitVec.getLsbD_extractLsb', BitVec.getLsbD_append]
  by_cases h : i < 8
  · simp [h]
  · have : i - 8 < 8 := by omega
    simp [h, this]; congr 1; omega

end Sys2Proof.Machine
end

