-- ==== Sys2Proof/Laws/WellFormed.lean ====
section
/-! SUPPORT. What a well-formed CFG gives, each conjunct once (00_scope.md R7). -/

namespace Sys2Proof

theorem Cfg.wf_nodup {c : Cfg} (h : c.wf = true) : c.addresses.Nodup := by
  simp only [Cfg.wf, Cfg.addressesDistinct, Bool.and_eq_true, decide_eq_true_eq] at h; exact h.2

theorem Cfg.wf_times {c : Cfg} (h : c.wf = true) : 1 ≤ c.tLead ∧ 1 ≤ c.tHalf ∧ 1 ≤ c.tTrail ∧ 1 ≤ c.tGap := by
  simp only [Cfg.wf, Cfg.frameTimesPositive, Bool.and_eq_true, decide_eq_true_eq] at h; omega

theorem Cfg.wf_nSteps {c : Cfg} (h : c.wf = true) : 1 ≤ c.nSteps := by
  simp only [Cfg.wf, Cfg.hasStep, Bool.and_eq_true, decide_eq_true_eq] at h; unfold Cfg.nSteps; omega

theorem Cfg.wf_poll {c : Cfg} (h : c.wf = true) : 1 ≤ c.pollCycles := by
  simp only [Cfg.wf, Cfg.waitsPositive, Bool.and_eq_true, decide_eq_true_eq] at h; omega

theorem Cfg.wf_dwell {c : Cfg} (h : c.wf = true) (n : Nat) : 1 ≤ c.dwellCycles n := by
  simp only [Cfg.wf, Cfg.waitsPositive, Bool.and_eq_true, decide_eq_true_eq, List.all_eq_true] at h
  unfold Cfg.dwellCycles Cfg.stepCell
  rw [List.getD_eq_getElem?_getD]
  cases hh : c.steps[n]? with
  | none => simp
  | some x => exact h.1.2.1 x (List.mem_of_getElem? hh)

/-- The addresses of the enumeration differ: of `NOOP` and the five configuration registers from one another and from the row registers. -/
theorem Cfg.wf_distinct {c : Cfg} (h : c.wf = true) :
    (∀ r, regRow r ≠ c.regNoop ∧ regRow r ≠ c.regDecode ∧ regRow r ≠ c.regIntensity ∧ regRow r ≠ c.regScanlimit ∧
      regRow r ≠ c.regShutdown ∧ regRow r ≠ c.regDisptest) ∧
    c.regNoop ≠ c.regDecode ∧ c.regNoop ≠ c.regIntensity ∧ c.regNoop ≠ c.regScanlimit ∧ c.regNoop ≠ c.regShutdown ∧
      c.regNoop ≠ c.regDisptest ∧ c.regDecode ≠ c.regIntensity ∧ c.regDecode ≠ c.regScanlimit ∧ c.regDecode ≠ c.regShutdown ∧
      c.regDecode ≠ c.regDisptest ∧ c.regIntensity ≠ c.regScanlimit ∧ c.regIntensity ≠ c.regShutdown ∧
      c.regIntensity ≠ c.regDisptest ∧ c.regScanlimit ≠ c.regShutdown ∧ c.regScanlimit ≠ c.regDisptest ∧
      c.regShutdown ≠ c.regDisptest := by
  have hd := Cfg.wf_nodup h
  simp only [Cfg.addresses, List.nodup_cons, List.mem_cons, List.not_mem_nil, not_or, or_false] at hd
  obtain ⟨⟨a1, a2, a3, a4, a5, a6, a7, a8, a9, a10, a11, a12, a13⟩, h1, h2, h3, h4, h5, h6, h7, h8, h9, h10, h11, h12, -⟩ := hd
  refine ⟨?_, a9, a10, a11, a12, a13, h9.1, h9.2.1, h9.2.2.1, h9.2.2.2, h10.1, h10.2.1, h10.2.2, h11.1, h11.2, h12⟩
  intro r
  fin_cases r
  · exact ⟨Ne.symm a1, h1.2.2.2.2.2.2.2⟩
  · exact ⟨Ne.symm a2, h2.2.2.2.2.2.2⟩
  · exact ⟨Ne.symm a3, h3.2.2.2.2.2⟩
  · exact ⟨Ne.symm a4, h4.2.2.2.2⟩
  · exact ⟨Ne.symm a5, h5.2.2.2⟩
  · exact ⟨Ne.symm a6, h6.2.2⟩
  · exact ⟨Ne.symm a7, h7.2⟩
  · exact ⟨Ne.symm a8, h8⟩

end Sys2Proof

namespace Sys2Proof.Machine

theorem csEnd_lt_lenFrame {c : Cfg} (h : c.wf = true) : csEnd c < lenFrame c := by
  have := Cfg.wf_times h; unfold lenFrame; omega

/-- Every position lasts at least one cycle. -/
theorem len_pos {c : Cfg} (h : c.wf = true) (p : Pos) : 1 ≤ len c p := by
  have h1 := csEnd_lt_lenFrame h
  have h2 := Cfg.wf_poll h
  cases p <;> simp only [len] <;> first | omega | exact Cfg.wf_dwell h _

end Sys2Proof.Machine
end

