-- ==== Sys2Proof/Laws/Cycle.lean ====
section
/-! SUPPORT. The cycle level and the host's launch: what a clock edge, a run, a frame's edges and a launch can do, said once. -/

namespace Sys2Proof.Machine

/-! ### Wires -/

/-- In a frame position, and while halted by BusFault, the wires are the waveform. -/
theorem wires_driven (s : State) (h : s.pos.isFrame = true ∨ busHalted s = true) : wires s = wave s.cfg s.w s.ph := by
  simp [wires, h]

theorem wires_idle (s : State) (hp : s.pos.isFrame = false) (hb : busHalted s = false) : wires s = Wires.idle := by
  simp [wires, hp, hb]

/-- Chip-select is low exactly inside the window (40_framer.md R100). -/
theorem wave_csN (c : Cfg) (w : FrameWord) (n : Nat) : (wave c w n).csN = if n < csEnd c then 0 else 1 := by
  unfold wave
  split_ifs with h1 h2 <;> (try rfl) <;> (exfalso; unfold csEnd at *; omega)

/-- The two bytes are complete one after the other inside the chip-select window. -/
theorem byteEnd_order {c : Cfg} (h : c.wf = true) : 0 < byteEnd c 1 ∧ byteEnd c 1 < byteEnd c 2 ∧ byteEnd c 2 < csEnd c := by
  obtain ⟨h1, h2, h3, -⟩ := Cfg.wf_times h
  unfold byteEnd csEnd
  omega

/-! ### One clock edge -/

theorem cstep_next (p : Pins) (s : State) (h : s.cfg.wf = true) : cstep p s = .next (clockEdge p s) := if_pos h

/-- A clock edge that answers a next state is `clockEdge` of a well-formed CFG. -/
theorem cstep_cases {p : Pins} {s t : State} (h : cstep p s = .next t) : s.cfg.wf = true ∧ t = clockEdge p s := by
  unfold cstep at h; split_ifs at h with hw
  exact ⟨hw, by cases h; rfl⟩

/-- Everything a clock edge can do: reset, the halt, the two failures, counting on, or the end of the position. -/
theorem clockEdge_cases (p : Pins) (s : State) :
    (p.rst = 1 ∧ clockEdge p s = resetEdge s) ∨
      (p.rst ≠ 1 ∧ s.fault = 1 ∧ clockEdge p s = s) ∨
      (s.fault = 0 ∧ s.pos.isFrame = true ∧ s.ph < csEnd s.cfg ∧ clockEdge p s = raiseBus s.ph (withdrawBytes s)) ∨
      (s.fault = 0 ∧ s.pos = .sample ∧ p.sensorErr = 1 ∧ clockEdge p s = raise .sensor s) ∨
      (s.fault = 0 ∧ s.ph < len s.cfg s.pos - 1 ∧ clockEdge p s = countOn s) ∨
      (s.fault = 0 ∧ ¬ s.ph < len s.cfg s.pos - 1 ∧ (s.pos = .sample → p.sensorErr ≠ 1) ∧
        clockEdge p s = arrive (successor s.cfg (edge p.sensorIn s.prev) s.pos) (lastEdgeEffect p s)) := by
  unfold clockEdge
  split_ifs with h1 h2 h3 h4 h5
  · exact .inl ⟨h1, rfl⟩
  · exact .inr (.inl ⟨h1, h2, rfl⟩)
  · exact .inr (.inr (.inl ⟨(fault_ne_one s).1 h2, h3.1, h3.2.1, rfl⟩))
  · exact .inr (.inr (.inr (.inl ⟨(fault_ne_one s).1 h2, h4.1, h4.2, rfl⟩)))
  · exact .inr (.inr (.inr (.inr (.inl ⟨(fault_ne_one s).1 h2, h5, rfl⟩))))
  · exact .inr (.inr (.inr (.inr (.inr ⟨(fault_ne_one s).1 h2, h5, fun hs he => h4 ⟨hs, he⟩, rfl⟩))))

/-- Counting on changes PH, and in a frame DRV and TRACE at its edges. -/
theorem countOn_eq (s : State) :
    ∃ d es, countOn s = { s with ph := s.ph + 1, drv := d, trace := s.trace ++ es } ∧ (d = s.drv ∨ d = latchWord s) ∧
      (s.pos.isFrame = false → d = s.drv ∧ es = []) := by
  unfold countOn
  dsimp only
  split_ifs with hf
  · exact ⟨s.drv, [], by simp, .inl rfl, fun _ => ⟨rfl, rfl⟩⟩
  · exact ⟨s.drv, [.tx (frameReg s.w)], rfl, .inl rfl, fun h => (hf h).elim⟩
  · exact ⟨s.drv, [.tx (frameVal s.w)], rfl, .inl rfl, fun h => (hf h).elim⟩
  · exact ⟨latchWord s, [.cs 1], rfl, .inr rfl, fun h => (hf h).elim⟩
  · exact ⟨s.drv, [], by simp, .inl rfl, fun h => (hf h).elim⟩

/-- Withdrawing the bytes of a frame leaves a trace that ends with its `CS(0)`. -/
theorem withdrawBytes_trace (es : List Event) (bs : List Byte) (s : State) (h : s.trace = es ++ [.cs 0] ++ bs.map .tx) :
    (withdrawBytes s).trace = es ++ [.cs 0] := by
  have key : ∀ bs : List Byte, List.rdropWhile Event.isTx (es ++ [Event.cs 0] ++ bs.map .tx) = es ++ [.cs 0] := by
    intro bs
    induction bs using List.reverseRecOn with
    | nil =>
      rw [List.map_nil, List.append_nil]
      exact List.rdropWhile_concat_neg _ _ _ (by simp [Event.isTx])
    | append_singleton bs b ih =>
      rw [List.map_append, ← List.append_assoc, List.map_singleton, List.rdropWhile_concat_pos _ _ _ (by rfl), ih]
  rw [withdrawBytes, h, key]

/-! ### Runs -/

theorem crun_append (ps qs : List Pins) (s : State) : crun (ps ++ qs) s = onNext (crun ps s) (crun qs) := by
  induction ps generalizing s with
  | nil => rfl
  | cons p ps ih =>
    simp only [List.cons_append, crun]
    cases cstep p s with
    | next t => exact ih t
    | fault r => rfl
    | refused r => rfl

/-! ### The host -/

theorem setCfg_cases {c : Cfg} {s t : State} (h : setCfg c s = .next t) :
    c.wf = true ∧ t = if s.rst = 1 then { s with cfg := c } else s := by
  unfold setCfg at h; split_ifs at h with hw hr <;> cases h
  · exact ⟨hw, (if_pos hr).symm⟩
  · exact ⟨hw, (if_neg hr).symm⟩

theorem launch_next (c : Cfg) (s : State) (hs : s.cfg.wf = true) (hc : c.wf = true) :
    launch c s = .next (setRst 0 (resetEdge { resetEdge (setRst 1 s) with cfg := c })) := by
  simp [launch, setCfg, onNext, hs, hc]

end Sys2Proof.Machine
end

