-- ==== Sys2Proof/Laws/PerInstr.lean ====
section
/-! SUPPORT. Per instruction: how many frames its image has is what its row's format says (30_encoding.md R70, R73). -/

namespace Sys2Proof.Laws.FrameCount

/-- The frames of an operation on the bus, by its format: FRAME16 one, OPSEQn `n` (for `ALERT` `8 * (N_STEPS + 1)`, 42_monitor.md R130;
none for `SHOW` of an id that is no pattern), PORT and NONE none. -/
def frames (c : Cfg) : Instr → Nat
  | .noop _ => 1
  | .row1 _ => 1
  | .row2 _ => 1
  | .row3 _ => 1
  | .row4 _ => 1
  | .row5 _ => 1
  | .row6 _ => 1
  | .row7 _ => 1
  | .row8 _ => 1
  | .decode _ => 1
  | .intensity _ => 1
  | .scanlimit _ => 1
  | .shutdown _ => 1
  | .disptest _ => 1
  | .wreg _ _ => 1
  | .clear => 8
  | .showPattern o => if (c.shownPattern o).isSome then 8 else 0
  | .initialise => 14
  | .alert => 8 * (c.nSteps + 1)
  | .boot => 14
  | .status _ => 0
  | .indSet => 0
  | .indClr => 0
  | .sample => 0
  | .dwell _ => 0
  | .tend => 0
  | .sleep => 0
  | .tick => 0
  | .iter => 0

/-- The frame words of an image. -/
def wordsOf : Option Image → List FrameWord
  | some (.frames ws) => ws
  | _ => []

/-- The image has as many frame words as the format says, under every CFG. -/
def Statement (i : Instr) : Prop := ∀ c, (wordsOf (encode c i)).length = frames c i

theorem noop (v : Byte) : Statement (.noop v) := fun _ => rfl
theorem row1 (v : Byte) : Statement (.row1 v) := fun _ => rfl
theorem row2 (v : Byte) : Statement (.row2 v) := fun _ => rfl
theorem row3 (v : Byte) : Statement (.row3 v) := fun _ => rfl
theorem row4 (v : Byte) : Statement (.row4 v) := fun _ => rfl
theorem row5 (v : Byte) : Statement (.row5 v) := fun _ => rfl
theorem row6 (v : Byte) : Statement (.row6 v) := fun _ => rfl
theorem row7 (v : Byte) : Statement (.row7 v) := fun _ => rfl
theorem row8 (v : Byte) : Statement (.row8 v) := fun _ => rfl
theorem decode (v : Byte) : Statement (.decode v) := fun _ => rfl
theorem intensity (v : Byte) : Statement (.intensity v) := fun _ => rfl
theorem scanlimit (v : Byte) : Statement (.scanlimit v) := fun _ => rfl
theorem shutdown (v : Byte) : Statement (.shutdown v) := fun _ => rfl
theorem disptest (v : Byte) : Statement (.disptest v) := fun _ => rfl
theorem wreg (r v : Byte) : Statement (.wreg r v) := fun _ => rfl
theorem clear : Statement .clear := fun _ => rfl
theorem showPattern (o : ShowOperand) : Statement (.showPattern o) := by
  intro c
  cases h : c.shownPattern o with
  | none => simp [encode, h, wordsOf, frames]
  | some p => simp [encode, h, wordsOf, frames, showWords, rows]

theorem initialise : Statement .initialise := fun _ => rfl

theorem alert : Statement .alert := by
  intro c
  have h : ∀ n, ((List.range n).flatMap fun s => showWords (c.stepPattern s)).length = 8 * n := by
    intro n
    induction n with
    | zero => rfl
    | succ n ih =>
      rw [List.range_succ, List.flatMap_append, List.length_append, ih]
      simp [showWords, rows]; omega
  simp [encode, wordsOf, Cfg.alertWords, h, clearWords, rows, frames]; omega

theorem boot : Statement .boot := fun _ => rfl
theorem status (m : Msg) : Statement (.status m) := fun _ => rfl
theorem indSet : Statement .indSet := fun _ => rfl
theorem indClr : Statement .indClr := fun _ => rfl
theorem sample : Statement .sample := fun _ => rfl
theorem dwell (s : Nat) : Statement (.dwell s) := fun _ => rfl
theorem tend : Statement .tend := fun _ => rfl
theorem sleep : Statement .sleep := fun _ => rfl
theorem tick : Statement .tick := fun _ => rfl
theorem iter : Statement .iter := fun _ => rfl

end Sys2Proof.Laws.FrameCount
end

