-- ==== Sys2Proof/Laws/Step.lean ====
section
/-! SUPPORT. What a step can do, said once. -/

namespace Sys2Proof.Machine

/-- A step that answers a next state is a reset edge, a halted block that stays, the landing at `B_START`, or the operation of the position
followed by the move to the next one. -/
theorem step_cases {s t : State} (h : step s = .next t) :
    s.cfg.wf = true ∧
      ((s.rst = 1 ∧ t = resetEdge s) ∨
        (s.rst ≠ 1 ∧ s.fault = 1 ∧ t = s) ∨
        (Ready s ∧ fetch s = none ∧ t = moveOn s.pos s) ∨
        (Ready s ∧ ∃ i u, fetch s = some i ∧ exec i s = .next u ∧ t = moveOn s.pos u)) := by
  unfold step at h
  split_ifs at h with hw hr hf hp hph
  · cases h; exact ⟨by simpa using hw, .inl ⟨hr, rfl⟩⟩
  · cases h; exact ⟨by simpa using hw, .inr (.inl ⟨hr, hf, rfl⟩)⟩
  · have hwf : s.cfg.wf = true := by simpa using hw
    have hready : Ready s :=
      ⟨⟨hwf, (fault_ne_one s).1 hf⟩, by revert hr; generalize s.rst = b; revert b; decide, by simpa using hph, by simpa using hp⟩
    refine ⟨hwf, .inr (.inr ?_)⟩
    cases hi : fetch s with
    | none => rw [hi] at h; cases h; exact .inl ⟨hready, rfl, rfl⟩
    | some i =>
      rw [hi] at h
      cases hx : exec i s with
      | next u => simp only [hx, andMoveOn] at h; cases h; exact .inr ⟨hready, i, u, rfl, hx, rfl⟩
      | fault r => simp [hx, andMoveOn] at h
      | refused r => simp [hx, andMoveOn] at h

end Sys2Proof.Machine
end

