-- ==== Sys2Proof/Tests/Slice0.lean ====
section
/-! SUPPORT. The model's own tests, with expected values from 95_test_vectors.md and the encodings of 30_encoding.md, and for each obligation with
hypotheses a witness that meets them. -/

namespace Sys2Proof.Tests

open Sys2Proof.Machine

/-! ### Helpers -/

/-- The next state of an outcome, if it is one. -/
def after? : Host.Outcome State Fault Refusal → Option State
  | .next t => some t
  | .fault _ => none
  | .refused _ => none

/-- Why an outcome was refused, if it was. -/
def refusal? : Host.Outcome State Fault Refusal → Option Refusal
  | .next _ => none
  | .fault _ => none
  | .refused r => some r

/-- A field of the next state. -/
def see {α : Type} (f : State → α) (o : Host.Outcome State Fault Refusal) : Option α := (after? o).map f

theorem exists_next_of_see {α : Type} {f : State → α} {o : Host.Outcome State Fault Refusal} {v : α} (h : see f o = some v) :
    ∃ t, o = .next t ∧ f t = v := by
  cases o with
  | next t => exact ⟨t, rfl, by simpa [see, after?] using h⟩
  | fault r => simp [see, after?] at h
  | refused r => simp [see, after?] at h

/-- `n` bus draws that are ok. -/
theorem busOk_quiet (c : Cfg) (n : Nat) (rest : List BusDraw) (e : Env) (h : e.bus = List.replicate n .quiet ++ rest) : BusOk c n e := by
  induction n generalizing e with
  | zero => trivial
  | succ n ih =>
    rw [List.replicate_succ, List.cons_append] at h
    exact ⟨by simp [Env.drawBus, h, failsAt], ih _ (by simp [Env.drawBus, h])⟩

/-- The sensor's fixed draws, in order. -/
theorem sensorGives_fixed (vs : List Bit) (rest : List SensorDraw) (e : Env)
    (h : e.sensor = vs.map (SensorDraw.mk 0) ++ rest) : SensorGives vs e := by
  induction vs generalizing e with
  | nil => trivial
  | cons v vs ih => exact ⟨by simp [Env.drawSensor, h], ih _ (by simp [Env.drawSensor, h])⟩

/-- A running block after reset whose next `n` frames are ok and whose sensor answers `vs`. -/
def start (n : Nat) (vs : List Bit) : State := { State.reset with env := ⟨List.replicate n .quiet, vs.map (SensorDraw.mk 0), 0, 0⟩ }

/-- `start` whose first frame is cut in cycle `p`. -/
def cutAt (p : Nat) : State := { State.reset with env := ⟨[.errAt p], [], 0, 0⟩ }

/-- A CFG whose cinematic is one step (V-T16). -/
def short : Cfg := { Cfg.default with steps := [⟨2, 2⟩] }

theorem short_wf : short.wf = true := by decide

/-- The draws of V-M9: the fourth frame fails. -/
def cutFourth : State := { State.reset with env := ⟨[.quiet, .quiet, .quiet, .errAt 5], [], 0, 0⟩ }

/-- Inside an alert, at the start of `p`. -/
def inAlert (p : Pos) : State :=
  { start 60 [] with
    pos := p, prev := 0, cur := 1, mstate := .alerted, ind := if p.indHigh then 1 else 0, w := (word Cfg.default p).getD 0 }

/-- A tick boundary with the given previous sample. -/
def boundary (prev : Bit) (n : Nat) (vs : List Bit) : State := { start n vs with prev := prev, cur := prev, pos := .sample, w := 0x0800 }

/-- A block halted by a sensor failure. -/
def halted : State := { boundary 0 0 [] with fault := 1, fcode := 2, trace := [.fault .sensor] }

/-- A block halted by a bus failure of a stand-alone call at a POS that is no frame position. -/
def stuck : State := { start 0 [] with w := 0x0A08, ph := 3, fault := 1, fcode := 1, trace := [.cs 0, .fault .bus] }

theorem default_wf : Cfg.default.wf = true := by decide

/-! ### WellFormed: each check refuses an ill-formed term -/

theorem test_wf_shared_address : Cfg.addressesDistinct { Cfg.default with regDecode := 0x01 } = false := by decide
theorem test_wf_shutdown_values : Cfg.shutdownValuesDiffer { Cfg.default with valNormal := 0x00 } = false := by decide
theorem test_wf_no_pattern : Cfg.hasPattern { Cfg.default with patterns := [] } = false := by decide
theorem test_wf_no_step : Cfg.hasStep { Cfg.default with steps := [] } = false := by decide
theorem test_wf_step_pattern : Cfg.stepPatsInRange { Cfg.default with steps := [⟨3, 2⟩] } = false := by decide
theorem test_wf_zero_dwell : Cfg.waitsPositive { Cfg.default with steps := [⟨0, 0⟩] } = false := by decide
theorem test_wf_zero_poll : Cfg.waitsPositive { Cfg.default with pollCycles := 0 } = false := by decide
theorem test_wf_zero_half : Cfg.frameTimesPositive { Cfg.default with tHalf := 0 } = false := by decide
theorem test_wf_zero_gap : Cfg.frameTimesPositive { Cfg.default with tGap := 0 } = false := by decide
theorem test_wf_whole : Cfg.wf { Cfg.default with regDisptest := 0x0C } = false := by decide
theorem test_wf_dwell : Instr.wf Cfg.default (.dwell 5) = false ∧ Instr.wf Cfg.default (.dwell 4) = true := by decide

/-! ### Decoding: words written out from R64 (2.2 of the vectors), images from R71, port bits from R73 -/

theorem test_decode_noop : decodeFrame Cfg.default 0b00000000_10101011 = .noop 0xAB := by decide
theorem test_decode_row1 : decodeFrame Cfg.default 0b00000001_11111111 = .row1 0xFF := by decide
theorem test_decode_row2 : decodeFrame Cfg.default 0b00000010_10000001 = .row2 0x81 := by decide
theorem test_decode_row3 : decodeFrame Cfg.default 0b00000011_00000000 = .row3 0x00 := by decide
theorem test_decode_row4 : decodeFrame Cfg.default 0b00000100_00011000 = .row4 0x18 := by decide
theorem test_decode_row5 : decodeFrame Cfg.default 0b00000101_10100101 = .row5 0xA5 := by decide
theorem test_decode_row6 : decodeFrame Cfg.default 0b00000110_10011001 = .row6 0x99 := by decide
theorem test_decode_row7 : decodeFrame Cfg.default 0b00000111_01000010 = .row7 0x42 := by decide
theorem test_decode_row8 : decodeFrame Cfg.default 0b00001000_00111100 = .row8 0x3C := by decide
theorem test_decode_decode : decodeFrame Cfg.default 0b00001001_00000000 = .decode 0x00 := by decide
theorem test_decode_intensity : decodeFrame Cfg.default 0b00001010_00001000 = .intensity 0x08 := by decide
theorem test_decode_scanlimit : decodeFrame Cfg.default 0b00001011_00000111 = .scanlimit 0x07 := by decide
theorem test_decode_shutdown : decodeFrame Cfg.default 0b00001100_00000001 = .shutdown 0x01 := by decide
theorem test_decode_disptest : decodeFrame Cfg.default 0b00001111_00000000 = .disptest 0x00 := by decide
/-- V-C15. -/
theorem test_decode_wreg : decodeFrame Cfg.default 0b00001101_01010101 = .wreg 0x0D 0x55 := by decide
/-- V-C16: the upper nibble counts. -/
theorem test_decode_wreg_high : decodeFrame Cfg.default 0b00010000_00000001 = .wreg 0x10 0x01 := by decide

/-- R71. -/
theorem test_decode_clear :
    decodeImage Cfg.default (.frames [0x0100, 0x0200, 0x0300, 0x0400, 0x0500, 0x0600, 0x0700, 0x0800]) = .ok .clear := by rfl
/-- V-M5. -/
theorem test_decode_show :
    decodeImage Cfg.default (.frames [0x0118, 0x0218, 0x0318, 0x0418, 0x0518, 0x0600, 0x0718, 0x0800]) =
      .ok (.showPattern (.bytes ⟨0x18, 0x18, 0x18, 0x18, 0x18, 0x00, 0x18, 0x00⟩)) := by rfl
/-- R71, V-M1. -/
theorem test_decode_initialise :
    decodeImage Cfg.default
      (.frames
        [0x0C00, 0x0F00, 0x0900, 0x0B07, 0x0A08, 0x0C01, 0x0100, 0x0200, 0x0300, 0x0400, 0x0500, 0x0600, 0x0700, 0x0800]) =
      .ok .initialise := by rfl
/-- `BOOT` has the image of `INIT` (log 8). -/
theorem test_encode_boot : encode Cfg.default .boot = encode Cfg.default .initialise := by decide
/-- V-T16: one step of RELAX, then the clear. -/
theorem test_decode_alert :
    decodeImage short
      (.frames
        [0x013C, 0x0242, 0x03A5, 0x0481, 0x05A5, 0x0699, 0x0742, 0x083C, 0x0100, 0x0200, 0x0300, 0x0400, 0x0500, 0x0600, 0x0700,
          0x0800]) =
      .ok .alert := by rfl
theorem test_decode_status : decodeImage Cfg.default (.sdPort 1 1) = .ok (.status .alert) := by rfl
theorem test_decode_status_monitoring : decodeImage Cfg.default (.sdPort 1 0) = .ok (.status .monitoring) := by rfl
theorem test_decode_no_request : decodeImage Cfg.default (.sdPort 0 1) = .error .noRequest := by rfl
theorem test_decode_indSet : decodeImage Cfg.default (.indOut 1) = .ok .indSet := by rfl
theorem test_decode_indClr : decodeImage Cfg.default (.indOut 0) = .ok .indClr := by rfl
theorem test_decode_sample : decodeImage Cfg.default (.sensorPort 0 1) = .ok .sample := by rfl
/-- R68, R72: half a frame. -/
theorem test_decode_broken : decodeBytes Cfg.default [0x0C] = .error .brokenFrame := by rfl
/-- Two frames that are no operation's image. -/
theorem test_decode_not_an_image : decodeBytes Cfg.default [0x0C, 0x01, 0x01, 0x00] = .error .notAnImage := by rfl
/-- R44, R60: the register byte is sent first. -/
theorem test_decode_bytes : decodeBytes Cfg.default [0x0C, 0x01] = .ok (.shutdown 0x01) := by rfl
/-- The rows of format NONE have no image (R73). -/
theorem test_encode_none :
    [Instr.dwell 0, .tend, .sleep, .tick, .iter].map (encode Cfg.default) = [none, none, none, none, none] := by decide

/-! ### The waveform -/

/-- V-F7. -/
def slow : Cfg := { Cfg.default with tLead := 2, tHalf := 2, tTrail := 1, tGap := 3 }

theorem test_wave_length : lenFrame slow = 70 := by decide
theorem test_wave_bits :
    [0, 3, 4, 5, 6, 7, 8, 9, 10, 66, 67, 69].map (wave slow 0xA5C3) =
      [⟨0, 0, 1⟩, ⟨0, 0, 1⟩, ⟨0, 1, 1⟩, ⟨0, 1, 1⟩, ⟨0, 0, 0⟩, ⟨0, 0, 0⟩, ⟨0, 1, 0⟩, ⟨0, 1, 0⟩, ⟨0, 0, 1⟩, ⟨0, 0, 0⟩, ⟨1, 0, 0⟩,
        ⟨1, 0, 0⟩] := by decide
/-- V-F3: `mosi = 1` in cycles 0 to 32, 0 in cycles 33, 34. -/
theorem test_wave_ones :
    [0, 32, 33, 34].map (fun n => (wave Cfg.default 0xFFFF n).mosi) = [1, 1, 0, 0] := by decide
/-- V-F7: the decoded bits. -/
theorem test_wire_decoder : wireFrames .start (frameWires slow 0xA5C3) = [.whole 0xA5C3] := by decide
/-- R72's event list, for V-S2's frame. -/
theorem test_wire_events : wireEvents .start (frameWires Cfg.default 0x0C01) = [.cs 0, .tx 0x0C, .tx 0x01, .cs 1] := by decide
/-- V-R4: reset at `PH = 20` leaves 10 of the 16 bits; the same wires without the rise of `cs_n` are an unfinished frame. -/
theorem test_wire_broken :
    (wireFrames .start ((frameWires Cfg.default 0xFFFF).take 21 ++ [Wires.idle])) = [.broken (List.replicate 10 1)] ∧
      (wireFrames .start ((frameWires Cfg.default 0xFFFF).take 21)) = [.unfinished (List.replicate 10 1)] := by decide
/-- V-R4: the default byte edges; the 8th rising edge enters `PH = 16`, the 16th `PH = 32`. -/
theorem test_byte_end : byteEnd Cfg.default 1 = 16 ∧ byteEnd Cfg.default 2 = 32 := by decide

/-! ### The frame commands -/

/-- V-C1. -/
theorem test_noop : see (fun t => (t.w, t.drv)) (exec (.noop 0xAB) (start 1 [])) = some (0x00AB, []) := by decide
theorem test_row1 : see State.drv (exec (.row1 0xFF) (start 1 [])) = some [(1, 0xFF)] := by decide
theorem test_row2 : see State.drv (exec (.row2 0x81) (start 1 [])) = some [(2, 0x81)] := by decide
theorem test_row3 : see State.drv (exec (.row3 0x00) (start 1 [])) = some [(3, 0x00)] := by decide
theorem test_row4 : see State.drv (exec (.row4 0x18) (start 1 [])) = some [(4, 0x18)] := by decide
theorem test_row5 : see State.drv (exec (.row5 0xA5) (start 1 [])) = some [(5, 0xA5)] := by decide
theorem test_row6 : see State.drv (exec (.row6 0x99) (start 1 [])) = some [(6, 0x99)] := by decide
theorem test_row7 : see State.drv (exec (.row7 0x42) (start 1 [])) = some [(7, 0x42)] := by decide
theorem test_row8 : see State.drv (exec (.row8 0x3C) (start 1 [])) = some [(8, 0x3C)] := by decide
theorem test_decode : see State.drv (exec (.decode 0x00) (start 1 [])) = some [(9, 0x00)] := by decide
theorem test_intensity : see State.drv (exec (.intensity 0x08) (start 1 [])) = some [(10, 0x08)] := by decide
theorem test_scanlimit : see State.drv (exec (.scanlimit 0x07) (start 1 [])) = some [(11, 0x07)] := by decide
/-- V-C17: the row stays. -/
theorem test_shutdown :
    see State.drv (exec (.shutdown 0x01) { start 1 [] with drv := [(1, 0xFF), (12, 0x00)] }) = some [(1, 0xFF), (12, 0x01)] := by
  decide
theorem test_disptest : see State.drv (exec (.disptest 0x00) (start 1 [])) = some [(15, 0x00)] := by decide
/-- V-F1, V-S2. -/
theorem test_wreg :
    see (fun t => (t.w, t.trace, t.drv)) (exec (.wreg 0x0C 0x01) (start 1 [])) =
      some (0x0C01, [.cs 0, .tx 0x0C, .tx 0x01, .cs 1], [(12, 0x01)]) := by decide
/-- V-F3: a reserved address. -/
theorem test_wreg_reserved :
    see (fun t => (t.w, t.fault, t.drv)) (exec (.wreg 0xFF 0xFF) { start 1 [] with drv := [(1, 0xFF)] }) =
      some (0xFFFF, 0, []) := by decide
/-- V-F6, at a POS that is no frame position: `cs_n` stays 0. -/
theorem test_bus_fault :
    see (fun t => (t.trace, t.fcode, t.drv, (outputs t).csN)) (exec (.wreg 0x0A 0x08) { cutAt 3 with drv := [(1, 0xFF)] }) =
      some ([.cs 0, .fault .bus], 1, [], 0) := by decide
/-- V-F9, V-F10: the gap cycle is ignored, the trail cycle is not. -/
theorem test_bus_fault_window :
    see (fun t => (t.fault, t.ph)) (exec (.row1 0) (cutAt 34)) = some (0, 0) ∧
      see (fun t => (t.fault, t.ph)) (exec (.row1 0) (cutAt 33)) = some (1, 33) := by decide

/-! ### Matrix operations -/

/-- V-M2. -/
theorem test_clear :
    see State.drv (exec .clear { start 8 [] with drv := [(1, 0xFF), (8, 0xFF), (10, 0x08)] }) =
      some [(1, 0), (2, 0), (3, 0), (4, 0), (5, 0), (6, 0), (7, 0), (8, 0), (10, 0x08)] := by decide
/-- V-M5, by the pattern id of R118. -/
theorem test_show :
    see State.drv (exec (.showPattern (.id 1)) (start 8 [])) =
      some [(1, 0x18), (2, 0x18), (3, 0x18), (4, 0x18), (5, 0x18), (6, 0x00), (7, 0x18), (8, 0x00)] := by decide
/-- V-M9. -/
theorem test_show_fails :
    see (fun t => (t.trace.length, t.w, t.drv)) (exec (.showPattern (.bytes Pattern.excl)) cutFourth) = some (14, 0x0418, []) := by decide
/-- V-M1. -/
theorem test_initialise :
    see State.drv (exec .initialise (start 14 [])) =
      some [(1, 0), (2, 0), (3, 0), (4, 0), (5, 0), (6, 0), (7, 0), (8, 0), (9, 0), (10, 0x08), (11, 0x07), (12, 0x01), (15, 0)] := by
  decide

/-! ### MONITOR -/

/-- V-T2. -/
theorem test_sample_edge :
    see (fun t => (t.cur, t.mstate, t.pos, t.trace)) (exec .sample (boundary 0 0 [1])) = some (1, .alerted, .aIndOn, [.rd 1]) := by
  decide
/-- V-T3: a falling edge does nothing. -/
theorem test_sample_fall :
    see (fun t => (t.cur, t.mstate, t.pos, t.prev)) (exec .sample (boundary 1 0 [0])) = some (0, .idle, .tEnd, 1) := by decide
/-- V-T5, V-T19. -/
theorem test_sample_fails :
    see (fun t => (t.cur, t.fault, t.fcode, t.trace))
        (exec .sample { boundary 0 0 [] with env := ⟨[], [⟨1, 1⟩], 0, 0⟩ }) = some (0, 1, 2, [.fault .sensor]) := by decide
/-- R128's example. -/
theorem test_tend : see (fun t => (t.prev, t.pos)) (exec .tend { boundary 1 0 [] with cur := 0 }) = some (0, .sleep) := by decide
/-- V-T7. -/
theorem test_indSet : see (fun t => (t.ind, t.trace)) (exec .indSet (start 0 [])) = some (1, [.ind 1]) := by decide
/-- V-T8. -/
theorem test_indClr :
    see (fun t => (t.ind, t.trace, t.mstate)) (exec .indClr (inAlert .aIndOff)) = some (0, [.ind 0], .alerted) := by decide
/-- V-T9. -/
theorem test_status : see State.trace (exec (.status .alert) (start 0 [])) = some [.sd .alert] := by decide
theorem test_status_ports :
    ((outputs (inAlert .aStatus)).sdValid, (outputs (inAlert .aStatus)).sdMsg, (outputs (inAlert .aRestore)).sdValid,
        (outputs (inAlert .aRestore)).sdMsg) = (1, 1, 1, 0) := by decide
/-- V-T11. -/
theorem test_dwell : see (fun t => (t.trace, t.pos)) (exec (.dwell 0) (start 0 [])) = some ([.dwell 0], .bStart) := by decide
theorem test_dwell_range : refusal? (exec (.dwell 5) (start 0 [])) = some .stepOutOfRange := by decide
theorem test_sleep : see (fun t => (t.trace, t.pos)) (exec .sleep (start 0 [])) = some ([.sleep], .sample) := by decide

/-- V-T16 with a CFG of one step: 69 events. -/
theorem test_alert :
    see (fun t => (t.trace.length, t.ind, t.mstate, t.pos)) (exec .alert { inAlert .aIndOn with cfg := short }) =
      some (69, 0, .idle, .tEnd) := by decide
/-- V-T6: debounce at boot. -/
theorem test_tick_high :
    see (fun t => (t.trace, t.prev, t.pos)) (exec .tick (boundary 1 0 [1])) = some ([.rd 1], 1, .sleep) := by decide
/-- V-T14: the edge's own tick ends with PREV = 1. -/
theorem test_tick_edge :
    see (fun t => (t.trace.length, t.prev, t.mstate))
        (exec .tick { boundary 0 16 [1] with cfg := short }) = some (70, 1, .idle) := by decide
/-- V-L2. -/
theorem test_iter :
    see (fun t => (t.trace, t.pos, t.prev)) (exec .iter (boundary 0 0 [0])) = some ([.rd 0, .sleep], .sample, 0) := by decide
/-- P1: 57 events. -/
theorem test_boot :
    see (fun t => (t.trace.length, t.trace.getLast?, t.pos, t.w)) (exec .boot (start 14 [])) =
      some (57, some (.sd .monitoring), .sample, 0x0800) := by decide

/-! ### Step, reset, halt, cycle level -/

/-- V-R6. -/
theorem test_first_step :
    see (fun t => (t.pos, t.w, (outputs t).csN)) (step State.reset) = some (.bInit 0, 0x0C00, 0) := by decide
/-- R154: the last dwell leads to `A_IND_OFF`, an earlier one to the next step's first row. -/
theorem test_step_dwell :
    see State.pos (step (inAlert (.aDwell 4))) = some .aIndOff ∧
      see (fun t => (t.pos, t.w)) (step (inAlert (.aDwell 1))) = some (.aShow 2 0, 0x01FF) := by decide
/-- V-T18: the first frame of step 2 fails. -/
theorem test_step_alert_fails :
    see (fun t => (t.pos, t.ind, t.mstate, t.prev, t.cur))
        (step { inAlert (.aShow 2 0) with env := ⟨[.errAt 9], [], 0, 0⟩ }) = some (.aShow 2 0, 1, .alerted, 0, 1) := by decide
/-- V-R3, V-R4: DRV after a reset outside and inside a frame. -/
theorem test_reset_drv :
    see State.drv (step { inAlert (.aDwell 3) with rst := 1, drv := [(1, 0x18)] }) = some [(1, 0x18)] ∧
      see State.drv (step { inAlert (.aShow 3 0) with rst := 1, ph := 20, drv := [(1, 0x18)] }) = some [] := by decide
/-- V-X2. -/
theorem test_halted : see (fun t => (t.fcode, t.pos, t.trace)) (step halted) = some (2, .sample, [.fault .sensor]) := by decide
/-- V-X1: cycle 81 of P6 is `PH = 10` of `B_INIT(2)`. -/
theorem test_cycle_bus_fault :
    see (fun t => (t.fault, t.fcode, t.ph, t.pos))
        (cstep ⟨0, 0, 0, 1⟩ { start 0 [] with pos := .bInit 2, w := 0x0900, ph := 10 }) = some (1, 1, 10, .bInit 2) := by decide
/-- V-X6: reset wins. -/
theorem test_cycle_reset :
    see (fun t => (t.fault, t.pos)) (cstep ⟨1, 0, 0, 1⟩ { start 0 [] with pos := .bInit 2, w := 0x0900, ph := 10 }) =
      some (0, .bStart) := by decide
/-- R101: the first byte is on the trace from the 8th rising edge of `sclk`. -/
theorem test_cycle_byte :
    see State.trace (cstep ⟨0, 0, 0, 0⟩ { start 0 [] with pos := .bInit 3, w := 0x0B07, ph := 15, trace := [.cs 0] }) =
      some [.cs 0, .tx 0x0B] := by decide
/-- V-F10: a failure in the trail cycle leaves neither byte on the trace. -/
theorem test_cycle_cut :
    see State.trace
        (cstep ⟨0, 0, 0, 1⟩ { start 0 [] with pos := .bInit 3, w := 0x0B07, ph := 33, trace := [.cs 0, .tx 0x0B, .tx 0x07] }) =
      some [.cs 0, .fault .bus] := by decide
/-- U12: no step is defined. -/
theorem test_cycle_illFormed :
    refusal? (cstep ⟨0, 0, 0, 0⟩ { start 0 [] with cfg := { Cfg.default with tGap := 0 } }) = some .badConfig := by decide
/-- R187, R192: a frame at `PH = 50` of 70 cycles is cut by the relaunch with a CFG of 35-cycle frames. -/
theorem test_relaunch :
    see (fun t => (t.drv, t.cfg.tHalf, t.pos))
        (launch Cfg.default { inAlert (.aShow 3 0) with cfg := slow, ph := 50, drv := [(1, 0x18)] }) = some ([], 1, .bStart) := by decide
/-- A word placed by the host's interface is the next step's operation. -/
theorem test_with_fetch_word :
    see State.trace (step ((start 1 []).withFetchWord 16 0x0A08)) = some [.cs 0, .tx 0x0A, .tx 0x08, .cs 1] := by decide

/-! ### Witnesses: a state and operands that meet the hypotheses of each obligation, at the ends of the ranges its clauses name -/

theorem start_running (n : Nat) (vs : List Bit) : Running (start n vs) := ⟨default_wf, rfl⟩
theorem start_busOk (n : Nat) (vs : List Bit) : BusOk (start n vs).cfg n (start n vs).env :=
  busOk_quiet _ n [] _ (List.append_nil _).symm
theorem boundary_ok (prev : Bit) (n : Nat) (vs : List Bit) : TickBoundary (boundary prev n vs) :=
  ⟨⟨default_wf, rfl⟩, rfl, rfl, rfl, rfl⟩
theorem boundary_busOk (prev : Bit) (n : Nat) (vs : List Bit) : BusOk (boundary prev n vs).cfg n (boundary prev n vs).env :=
  busOk_quiet _ n [] _ (List.append_nil _).symm
theorem boundary_sensor (prev : Bit) (n : Nat) (vs : List Bit) : SensorGives vs (boundary prev n vs).env :=
  sensorGives_fixed vs [] _ (List.append_nil _).symm

theorem witness_decodeOfEncode :
    Cfg.default.wf = true ∧ encode Cfg.default (.row2 0x81) = some (.frames [0x0281]) ∧
      encode Cfg.default (.status .alert) = some (.sdPort 1 1) := by decide
theorem witness_initializeOrder : Cfg.default.wf = true := by decide
/-- For the statements about what the sequencer emits: the first and the last kind of frame position. -/
theorem witness_sequencerEmits :
    Cfg.default.wf = true ∧ word Cfg.default (.bInit 0) = some 0x0C00 ∧ word Cfg.default (.aShow 4 7) = some 0x083C := by decide
theorem witness_wireDecoder : slow.wf = true := by decide
/-- A block at the start of a frame position, and pins that do not fail for as long as the frame has cycles. -/
theorem witness_frameRun :
    Running (inAlert (.aShow 2 3)) ∧ (inAlert (.aShow 2 3)).pos.isFrame = true ∧ (inAlert (.aShow 2 3)).ph = 0 ∧
      (∀ p ∈ List.replicate 34 (⟨0, 1, 1, 0⟩ : Pins), p.rst = 0) ∧
      failsAt (inAlert (.aShow 2 3)).cfg (busDrawOf (List.replicate 34 ⟨0, 1, 1, 0⟩)) = none ∧
      (List.replicate 34 (⟨0, 1, 1, 0⟩ : Pins)).length + 1 = lenFrame (inAlert (.aShow 2 3)).cfg :=
  ⟨⟨default_wf, rfl⟩, rfl, rfl, by decide, by decide, by decide⟩
/-- The same block under pins that fail in the first and in the last cycle of the chip-select window. -/
theorem witness_frameCut :
    (∀ p ∈ List.replicate 3 (⟨0, 0, 0, 1⟩ : Pins), p.rst = 0) ∧
      failsAt (inAlert (.aShow 2 3)).cfg (busDrawOf (List.replicate 3 ⟨0, 0, 0, 1⟩)) = some 0 ∧
      failsAt (inAlert (.aShow 2 3)).cfg (busDrawOf (List.replicate 33 ⟨0, 0, 0, 0⟩ ++ [⟨0, 0, 0, 1⟩])) = some 33 := by decide
/-- The ends of the four ranges of a cycle number, a position that is no frame and one that is. -/
theorem witness_waveform :
    0 < slow.tLead ∧ 1 < slow.tLead ∧ (0 < 16 ∧ 0 < 2 * slow.tHalf) ∧ (15 < 16 ∧ 3 < 2 * slow.tHalf) ∧
      (slow.tLead + 32 * slow.tHalf ≤ 66 ∧ 66 < slow.tLead + 32 * slow.tHalf + slow.tTrail) ∧
      slow.tLead + 32 * slow.tHalf + slow.tTrail ≤ 67 ∧
      ((start 0 []).pos.isFrame = false ∧ ¬ ((start 0 []).fault = 1 ∧ (start 0 []).fcode = 1)) ∧
      (inAlert (.aShow 2 3)).pos.isFrame = true ∧ (stuck.fault = 1 ∧ stuck.fcode = 1) := by decide
/-- The no-op address, the first and the last address of the enumeration, a reserved address. -/
theorem witness_chipLatch :
    (0x00 : Byte) = Cfg.default.regNoop ∧ ((0x01 : Byte) ≠ Cfg.default.regNoop ∧ (0x01 : Byte) ∈ Cfg.default.addresses) ∧
      ((0x0F : Byte) ≠ Cfg.default.regNoop ∧ (0x0F : Byte) ∈ Cfg.default.addresses) ∧
      ((0x0D : Byte) ≠ Cfg.default.regNoop ∧ (0x0D : Byte) ∉ Cfg.default.addresses) := by decide
/-- For the three statements about single frames and for `writeRegister`; the gap cycle's failure is no failure. -/
theorem witness_frame :
    (Running (start 1 []) ∧ failsAt (start 1 []).cfg (start 1 []).env.drawBus.1 = none) ∧
      (Running (cutAt 34) ∧ failsAt (cutAt 34).cfg (cutAt 34).env.drawBus.1 = none) :=
  ⟨⟨start_running 1 [], rfl⟩, ⟨default_wf, rfl⟩, by decide⟩
/-- A failure in the first and in the last cycle of the chip-select window. -/
theorem witness_busFailure :
    (Running (cutAt 0) ∧ encode (cutAt 0).cfg (.row1 0xFF) = some (.frames [0x01FF]) ∧
        failsAt (cutAt 0).cfg (cutAt 0).env.drawBus.1 = some 0) ∧
      (Running (cutAt 33) ∧ encode (cutAt 33).cfg (.wreg 0x0D 0x55) = some (.frames [0x0D55]) ∧
        failsAt (cutAt 33).cfg (cutAt 33).env.drawBus.1 = some 33) :=
  ⟨⟨⟨default_wf, rfl⟩, by decide, by decide⟩, ⟨default_wf, rfl⟩, by decide, by decide⟩
/-- A pattern id, the last one, and the first that is none. -/
theorem witness_showOperand :
    Cfg.default.shownPattern (.id 2) = some Pattern.relax ∧ 2 < Cfg.default.patterns.length ∧ ¬ 3 < Cfg.default.patterns.length := by decide
/-- The fourth frame of SHOW EXCL (V-M9), of CLEAR and of INIT fails. -/
theorem witness_failedComposite :
    (Running cutFourth ∧ BusOk cutFourth.cfg 3 cutFourth.env ∧ failsAt cutFourth.cfg (Env.afterBus 3 cutFourth.env).drawBus.1 = some 5) ∧
      clearWords = [0x0100, 0x0200, 0x0300] ++ 0x0400 :: [0x0500, 0x0600, 0x0700, 0x0800] ∧
      showWords Pattern.excl = [0x0118, 0x0218, 0x0318] ++ 0x0418 :: [0x0518, 0x0600, 0x0718, 0x0800] ∧
      cutFourth.cfg.initWords =
        [0x0C00, 0x0F00, 0x0900] ++ 0x0B07 :: [0x0A08, 0x0C01, 0x0100, 0x0200, 0x0300, 0x0400, 0x0500, 0x0600, 0x0700, 0x0800] :=
  ⟨⟨⟨default_wf, rfl⟩, busOk_quiet _ 3 [.errAt 5] _ rfl, by decide⟩, by decide, by decide, by decide⟩
/-- `clear` and `showPattern`. -/
theorem witness_eightFrames : Running (start 8 []) ∧ BusOk (start 8 []).cfg 8 (start 8 []).env := ⟨start_running 8 [], start_busOk 8 []⟩
/-- `initialize` and boot. -/
theorem witness_fourteenFrames : Running (start 14 []) ∧ BusOk (start 14 []).cfg 14 (start 14 []).env :=
  ⟨start_running 14 [], start_busOk 14 []⟩
theorem witness_clearTwice : Running (start 16 []) ∧ BusOk (start 16 []).cfg 16 (start 16 []).env :=
  ⟨start_running 16 [], start_busOk 16 []⟩
theorem witness_roundTrip : Running (start 24 []) ∧ BusOk (start 24 []).cfg 24 (start 24 []).env :=
  ⟨start_running 24 [], start_busOk 24 []⟩

/-- The chip as `initialize()` leaves it, with the rows blank. -/
def lit : State := { start 8 [] with drv := [(9, 0x00), (10, 0x08), (11, 0x07), (12, 0x01), (15, 0x00)] }

theorem witness_shown :
    Running lit ∧ BusOk lit.cfg 8 lit.env ∧ Memory.read lit.drv lit.cfg.regDecode = some lit.cfg.valDecodeRaw ∧
      Memory.read lit.drv lit.cfg.regScanlimit = some lit.cfg.valScanAll8 ∧
      Memory.read lit.drv lit.cfg.regShutdown = some lit.cfg.valNormal ∧
      Memory.read lit.drv lit.cfg.regDisptest = some lit.cfg.valTestOff ∧ lit.cfg.shownPattern (.id 2) = some Pattern.relax ∧
      ∃ t, exec (.showPattern (.id 2)) lit = .next t :=
  ⟨⟨default_wf, rfl⟩, start_busOk 8 [], by decide, by decide, by decide, by decide, by decide,
    (exists_next_of_see (f := State.w) (v := 0x083C) (by decide)).imp fun _ h => h.1⟩

/-- Samples 0 and 1, after 0 and after 1. -/
theorem witness_sample :
    (Running (boundary 0 0 [1]) ∧ (boundary 0 0 [1]).env.drawSensor.1 = ⟨0, 1⟩) ∧
      (Running (boundary 1 0 [0]) ∧ (boundary 1 0 [0]).env.drawSensor.1 = ⟨0, 0⟩) :=
  ⟨⟨(boundary_ok 0 0 [1]).1, rfl⟩, (boundary_ok 1 0 [0]).1, rfl⟩
/-- A failed read with either value. -/
theorem witness_sensorFailure (v : Bit) :
    Running { boundary 0 0 [] with env := ⟨[], [⟨1, v⟩], 0, 0⟩ } ∧
      ({ boundary 0 0 [] with env := ⟨[], [⟨1, v⟩], 0, 0⟩ } : State).env.drawSensor.1.err = 1 := ⟨(boundary_ok 0 0 []).1, rfl⟩
/-- End of tick, the indicator operations, the status request and the sleep ask for a running block alone. -/
theorem witness_running : Running (start 0 []) := start_running 0 []
/-- The last step and the first index that is none. -/
theorem witness_dwell : Running (start 0 []) ∧ 4 < (start 0 []).cfg.nSteps ∧ ¬ 5 < (start 0 []).cfg.nSteps :=
  ⟨start_running 0 [], by decide, by decide⟩
theorem witness_alert : Running (start 48 []) ∧ BusOk (start 48 []).cfg (alertFrames (start 48 []).cfg) (start 48 []).env :=
  ⟨start_running 48 [], start_busOk 48 []⟩
/-- A tick without an edge (a high sensor at boot), and one with an edge. -/
theorem witness_tick :
    (Running (boundary 1 0 [1]) ∧ (boundary 1 0 [1]).env.drawSensor.1 = ⟨0, 1⟩ ∧ (boundary 1 0 [1]).mstate = .idle ∧
        ¬ ((1 : Bit) = 1 ∧ (boundary 1 0 [1]).prev = 0)) ∧
      (Running (boundary 0 48 [1]) ∧ (boundary 0 48 [1]).env.drawSensor.1 = ⟨0, 1⟩ ∧ ((1 : Bit) = 1 ∧ (boundary 0 48 [1]).prev = 0) ∧
        BusOk (boundary 0 48 [1]).cfg (alertFrames (boundary 0 48 [1]).cfg) (boundary 0 48 [1]).env.drawSensor.2) :=
  ⟨⟨(boundary_ok 1 0 [1]).1, rfl, rfl, by decide⟩, (boundary_ok 0 48 [1]).1, rfl, by decide, busOk_quiet _ 48 [] _ (List.append_nil _).symm⟩
/-- An iteration whose sample is an edge, and one whose sample is none. -/
theorem witness_iteration :
    (Running (boundary 0 48 [1]) ∧ (boundary 0 48 [1]).mstate = .idle ∧ (boundary 0 48 [1]).env.drawSensor.1 = ⟨0, 1⟩ ∧
        (edge 1 (boundary 0 48 [1]).prev = true →
          BusOk (boundary 0 48 [1]).cfg (alertFrames (boundary 0 48 [1]).cfg) (boundary 0 48 [1]).env.drawSensor.2)) ∧
      (Running (boundary 0 0 [0]) ∧ (boundary 0 0 [0]).mstate = .idle ∧ (boundary 0 0 [0]).env.drawSensor.1 = ⟨0, 0⟩ ∧
        edge 0 (boundary 0 0 [0]).prev = false) :=
  ⟨⟨(boundary_ok 0 48 [1]).1, rfl, rfl, fun _ => busOk_quiet _ 48 [] _ (List.append_nil _).symm⟩, (boundary_ok 0 0 [0]).1, rfl, rfl,
    by decide⟩
theorem witness_failedAlert : Running { cutFourth with cfg := short } ∧ ∃ t, exec .alert { cutFourth with cfg := short } = .next t ∧ t.fault = 1 :=
  ⟨⟨short_wf, rfl⟩, exists_next_of_see (by decide)⟩
/-- A tick that fails at its sample, and one that fails in its alert sequence. -/
theorem witness_failedTick :
    (Running { boundary 0 0 [] with env := ⟨[], [⟨1, 0⟩], 0, 0⟩ } ∧
        ∃ t, exec .tick { boundary 0 0 [] with env := ⟨[], [⟨1, 0⟩], 0, 0⟩ } = .next t ∧ t.fault = 1) ∧
      (Running { boundary 0 0 [] with cfg := short, env := ⟨[.errAt 0], [⟨0, 1⟩], 0, 0⟩ } ∧
        ∃ t, exec .tick { boundary 0 0 [] with cfg := short, env := ⟨[.errAt 0], [⟨0, 1⟩], 0, 0⟩ } = .next t ∧ t.fault = 1) :=
  ⟨⟨(boundary_ok 0 0 []).1, exists_next_of_see (by decide)⟩, ⟨short_wf, rfl⟩, exists_next_of_see (by decide)⟩

/-- A halted block, an operation it is asked for, and inputs that are all up but `rst`. -/
theorem witness_halt :
    halted.cfg.wf = true ∧ halted.fault = 1 ∧ Instr.wf halted.cfg (.dwell 4) = true ∧ halted.rst = 0 ∧ (⟨0, 1, 1, 1⟩ : Pins).rst = 0 := by
  decide
/-- `rst` high inside a frame and outside one. -/
theorem witness_reset :
    ({ inAlert (.aShow 3 0) with rst := 1, ph := 20 } : State).cfg.wf = true ∧ ({ inAlert (.aShow 3 0) with rst := 1, ph := 20 } : State).rst = 1 ∧
      (outputs { inAlert (.aShow 3 0) with rst := 1, ph := 20 }).csN = 0 ∧
      (outputs { inAlert (.aDwell 3) with rst := 1 }).csN = 1 ∧ (⟨1, 1, 1, 1⟩ : Pins).rst = 1 := by decide

theorem inAlert_ready (p : Pos) (h : p.wf Cfg.default = true) : Ready (inAlert p) := ⟨⟨default_wf, rfl⟩, rfl, rfl, h⟩

/-- A ready block in a frame position, at a dwell, and at `B_START`. -/
theorem witness_step :
    (Ready (inAlert (.aShow 4 7)) ∧ fetch (inAlert (.aShow 4 7)) = some (.row8 0x3C) ∧ (inAlert (.aShow 4 7)).pos.isFrame = true) ∧
      (Ready (inAlert (.aDwell 4)) ∧ fetch (inAlert (.aDwell 4)) = some (.dwell 4)) ∧
      (Ready (start 0 []) ∧ (start 0 []).pos = .bStart) :=
  ⟨⟨inAlert_ready _ (by decide), by decide, by decide⟩, ⟨inAlert_ready _ (by decide), by decide⟩,
    ⟨start_running 0 [], rfl, rfl, rfl⟩, rfl⟩
/-- A frame position, and `SAMPLE`. -/
theorem witness_table :
    (Ready (inAlert (.aShow 4 7)) ∧ (∀ w, word (inAlert (.aShow 4 7)).cfg (inAlert (.aShow 4 7)).pos = some w → (inAlert (.aShow 4 7)).w = w) ∧
        ∃ t, step (inAlert (.aShow 4 7)) = .next t ∧ t.fault = 0) ∧
      (Ready (boundary 0 0 [1]) ∧ (∀ w, word (boundary 0 0 [1]).cfg (boundary 0 0 [1]).pos = some w → (boundary 0 0 [1]).w = w) ∧
        ∃ t, step (boundary 0 0 [1]) = .next t ∧ t.fault = 0) :=
  ⟨⟨inAlert_ready _ (by decide), fun _ h => Option.some.inj h, exists_next_of_see (by decide)⟩,
    ⟨(boundary_ok 0 0 [1]).1, rfl, rfl, rfl⟩, fun _ h => (Option.some_ne_none _ h.symm).elim, exists_next_of_see (by decide)⟩
/-- An operation that changes PREV, one that changes CUR and MSTATE, and one that changes IND. -/
theorem witness_writers :
    (∃ t, exec .tend { boundary 1 0 [] with cur := 0 } = .next t ∧ t.prev = 0) ∧
      (∃ t, exec .sample (boundary 0 0 [1]) = .next t ∧ (t.cur, t.mstate) = (1, .alerted)) ∧
      (∃ t, exec .indSet (start 0 []) = .next t ∧ t.ind = 1) :=
  ⟨exists_next_of_see (by decide), exists_next_of_see (f := fun t => (t.cur, t.mstate)) (by decide), exists_next_of_see (by decide)⟩
theorem witness_deaf : (inAlert (.aDwell 2)).pos ≠ .sample ∧ ∃ t, step (inAlert (.aDwell 2)) = .next t :=
  ⟨by decide, (exists_next_of_see (f := State.fault) (v := 0) (by decide)).imp fun _ h => h.1⟩
theorem witness_illFormed : ({ start 0 [] with cfg := { Cfg.default with pollCycles := 0 } } : State).cfg.wf = false := by decide
/-- A launch from a halt with chip-select high, a relaunch inside a frame of another timing, and an ill-formed CFG. -/
theorem witness_launch :
    (halted.cfg.wf = true ∧ slow.wf = true ∧ Memory.wf halted.drv = true ∧ (outputs halted).csN = 1) ∧
      (outputs { inAlert (.aShow 3 0) with cfg := slow, ph := 50 }).csN = 0 ∧ Cfg.wf { Cfg.default with tGap := 0 } = false := by decide

/-- A state in the middle of an alert meets the invariants. -/
theorem inAlert_inv : EventInv (inAlert (.aShow 2 3)) :=
  ⟨{  cfgOk := default_wf
      posOk := by decide
      phOk := by decide
      drvOk := by decide
      wordOk := fun _ h => Option.some.inj h
      alerted := by decide
      indOk := by decide
      alertCur := by decide
      codeZero := by decide
      codeBus := by decide
      codeSens := by decide
      codeMax := by decide }, fun _ => rfl⟩
theorem witness_stepInv : EventInv (inAlert (.aShow 2 3)) ∧ ∃ t, step (inAlert (.aShow 2 3)) = .next t :=
  ⟨inAlert_inv, (exists_next_of_see (f := State.fault) (v := 0) (by decide)).imp fun _ h => h.1⟩
theorem witness_clockInv : Inv (inAlert (.aShow 2 3)) ∧ ∃ t, cstep ⟨0, 1, 0, 0⟩ (inAlert (.aShow 2 3)) = .next t :=
  ⟨inAlert_inv.1, _, if_pos default_wf⟩
/-- The start of a frame, `CS(0)` just read. -/
theorem witness_cycleDiscipline :
    Inv (cycleView (inAlert (.aShow 2 3))) ∧ CycleTraceInv (cycleView (inAlert (.aShow 2 3))) ∧
      ∃ t, cstep ⟨0, 1, 0, 0⟩ (cycleView (inAlert (.aShow 2 3))) = .next t :=
  ⟨{ cfgOk := default_wf
     posOk := by decide
     phOk := by decide
     drvOk := by decide
     wordOk := fun _ h => Option.some.inj h
     alerted := by decide
     indOk := by decide
     alertCur := by decide
     codeZero := by decide
     codeBus := by decide
     codeSens := by decide
     codeMax := by decide }, by unfold CycleTraceInv; decide, _, if_pos default_wf⟩
/-- The first and the last cycle of a frame position. -/
theorem witness_phase :
    Cfg.default.wf = true ∧ Pos.wf Cfg.default (.aShow 4 7) = true ∧ 0 < len Cfg.default (.aShow 4 7) ∧ 34 < len Cfg.default (.aShow 4 7) := by
  decide
theorem witness_discipline :
    TraceInv { inAlert (.aShow 2 3) with trace := [.cs 0, .tx 0x03, .tx 0x81, .cs 1] } ∧
      ∃ t, step { inAlert (.aShow 2 3) with trace := [.cs 0, .tx 0x03, .tx 0x81, .cs 1] } = .next t :=
  ⟨⟨by decide, by decide⟩, (exists_next_of_see (f := State.fault) (v := 0) (by decide)).imp fun _ h => h.1⟩

theorem witness_alertRun : Ready (inAlert .aIndOn) ∧ (inAlert .aIndOn).pos = .aIndOn := ⟨inAlert_ready _ rfl, rfl⟩
theorem witness_bootRun : Ready (start 14 []) ∧ (start 14 []).pos = .bStart := ⟨⟨start_running 14 [], rfl, rfl, rfl⟩, rfl⟩
theorem witness_iterRun : Ready (boundary 0 48 [1]) ∧ (boundary 0 48 [1]).pos = .sample ∧ (boundary 0 48 [1]).mstate = .idle :=
  ⟨⟨(boundary_ok 0 48 [1]).1, rfl, rfl, rfl⟩, rfl, rfl⟩
/-- SDPM's scenario, P3, from the tick boundary after boot: two rising edges. -/
theorem witness_risingEdges :
    TickBoundary (boundary 1 96 [0, 0, 1, 1, 0, 1]) ∧ SensorGives [0, 0, 1, 1, 0, 1] (boundary 1 96 [0, 0, 1, 1, 0, 1]).env ∧
      BusOk (boundary 1 96 [0, 0, 1, 1, 0, 1]).cfg
        (alertFrames (boundary 1 96 [0, 0, 1, 1, 0, 1]).cfg * risingEdges (boundary 1 96 [0, 0, 1, 1, 0, 1]).prev [0, 0, 1, 1, 0, 1])
        (boundary 1 96 [0, 0, 1, 1, 0, 1]).env :=
  ⟨boundary_ok _ _ _, boundary_sensor _ _ _, boundary_busOk _ 96 _⟩
theorem witness_highSensor :
    TickBoundary (boundary 1 0 [1, 1, 1]) ∧ (boundary 1 0 [1, 1, 1]).prev = 1 ∧
      SensorGives (List.replicate 3 1) (boundary 1 0 [1, 1, 1]).env :=
  ⟨boundary_ok _ _ _, rfl, boundary_sensor _ _ _⟩

/-- A frame position under 35 quiet cycles, and `SAMPLE` under the pins of its draw. -/
theorem witness_circuit :
    (Ready (inAlert (.aShow 2 3)) ∧ (∃ t, step (inAlert (.aShow 2 3)) = .next t) ∧
        (List.replicate 35 (⟨0, 1, 1, 0⟩ : Pins)).length = len (inAlert (.aShow 2 3)).cfg (inAlert (.aShow 2 3)).pos ∧
        failsAt Cfg.default (busDrawOf (List.replicate 35 ⟨0, 1, 1, 0⟩)) = failsAt Cfg.default (inAlert (.aShow 2 3)).env.drawBus.1) ∧
      (Ready (boundary 0 0 [1]) ∧ (∃ t, step (boundary 0 0 [1]) = .next t) ∧
        [(⟨0, 1, 0, 1⟩ : Pins)].length = len (boundary 0 0 [1]).cfg (boundary 0 0 [1]).pos ∧
        sensorDrawOf ⟨0, 1, 0, 1⟩ = (boundary 0 0 [1]).env.drawSensor.1) :=
  ⟨⟨inAlert_ready _ (by decide), (exists_next_of_see (f := State.fault) (v := 0) (by decide)).imp fun _ h => h.1, by decide, by decide⟩,
    ⟨(boundary_ok 0 0 [1]).1, rfl, rfl, rfl⟩, (exists_next_of_see (f := State.fault) (v := 0) (by decide)).imp fun _ h => h.1, by decide,
    by decide⟩
/-- Inputs that differ, at a dwell (chip-select high, no sample). -/
theorem witness_ignored :
    (⟨0, 1, 1, 1⟩ : Pins).rst = (⟨0, 0, 0, 0⟩ : Pins).rst ∧ (outputs (inAlert (.aDwell 2))).csN ≠ 0 ∧ (inAlert (.aDwell 2)).pos ≠ .sample := by
  decide

end Sys2Proof.Tests
end

/-! ### An ill-formed CFG is refused -/

section
namespace Sys2Proof.Machine

/-- Both arms of `SHOW` answer for CFG first: a known pattern through `complete`, an unknown one by the check itself. -/
theorem execShow_refused (o : ShowOperand) (s : State) (h : s.cfg.wf = false) : execShow o s = .refused .badConfig := by
  unfold execShow
  cases s.cfg.shownPattern o with
  | some p => exact complete_refused (showOp p) s h
  | none => simp [h]

/-- The bound on the step index of `DWELL` counts only under a well-formed CFG. -/
theorem execDwell_refused (n : Nat) (s : State) (h : s.cfg.wf = false) : execDwell n s = .refused .badConfig := by
  have hguard : ¬ (s.cfg.wf = true ∧ ¬ n < s.cfg.nSteps) := by simp [h]
  exact (if_neg hguard).trans (complete_refused (dwellOp n) s h)

/-- Every meaning but those of `SHOW` and `DWELL` is `complete` of its operation. -/
theorem exec_refused (i : Instr) (s : State) (h : s.cfg.wf = false) : exec i s = .refused .badConfig := by
  cases i with
  | showPattern o => exact execShow_refused o s h
  | dwell n => exact execDwell_refused n s h
  | _ => exact complete_refused _ s h

theorem step_refused (s : State) (h : s.cfg.wf = false) : step s = .refused .badConfig := if_pos h

theorem cstep_refused (p : Pins) (s : State) (h : s.cfg.wf = false) : cstep p s = .refused .badConfig := by
  simp [cstep, h]

theorem setCfg_refused (c : Cfg) (s : State) (h : c.wf = false) : setCfg c s = .refused .badConfig := by
  simp [setCfg, h]

/-- The first edge of a launch is an edge under the old CFG. -/
theorem launch_refused_of_old (c : Cfg) (s : State) (h : s.cfg.wf = false) : launch c s = .refused .badConfig := by
  simp [launch, h]

/-- The old CFG refuses the launch, or `setCfg` refuses the new one between its two edges. -/
theorem launch_refused_of_new (c : Cfg) (s : State) (h : c.wf = false) : launch c s = .refused .badConfig := by
  cases hs : s.cfg.wf with
  | false => exact launch_refused_of_old c s hs
  | true => simp [launch, hs, setCfg_refused c _ h, onNext]

/-- Settles O41: an ill-formed CFG in the state is refused by each of the four moves before it does anything else, an ill-formed
new CFG by `setCfg`, through which `launch` puts it in place. -/
theorem illFormedConfigRefused : Obligations.IllFormedConfigRefused :=
  ⟨fun s h => ⟨fun i => exec_refused i s h, step_refused s h, fun p => cstep_refused p s h, fun c => launch_refused_of_old c s h⟩,
    fun c s h => ⟨launch_refused_of_new c s h, setCfg_refused c s h⟩⟩

end Sys2Proof.Machine
end
/-! ### Reset -/

section
namespace Sys2Proof.Machine

/-- The state a reset edge leaves: the registers of 10_state.md R27 under the CFG `c`, with the four things reset does not fix. -/
def afterReset (c : Cfg) (b : Bit) (m : Memory) (e : Env) : State :=
  { State.reset with cfg := c, prev := c.prevReset, drv := m, rst := b, env := e }

theorem resetEdge_eq_afterReset (s : State) :
    resetEdge s = afterReset s.cfg s.rst (if (outputs s).csN = 0 then Memory.unknown else s.drv) s.env := rfl

/-- `B_START` is no frame position and a block after reset is not halted. -/
theorem outputs_afterReset (c : Cfg) (b : Bit) (m : Memory) (e : Env) :
    outputs (afterReset c b m e) = ⟨1, 0, 0, 0, 0, 0, 0, 0⟩ := rfl

theorem eventInv_afterReset {c : Cfg} {m : Memory} (b : Bit) (e : Env) (hc : c.wf = true) (hm : Memory.wf m = true) :
    EventInv (afterReset c b m e) :=
  ⟨{  cfgOk := hc
      posOk := rfl
      phOk := Nat.one_pos
      drvOk := hm
      wordOk := fun _ h => nomatch h
      alerted := by simp [afterReset, State.reset, Pos.isAlert]
      indOk := by simp [afterReset, State.reset, Pos.indHigh]
      alertCur := fun h => nomatch h
      codeZero := iff_of_true rfl rfl
      codeBus := fun h => nomatch h
      codeSens := fun h => nomatch h
      codeMax := fun h => nomatch h }, fun _ => rfl⟩

/-- The empty trace of a running block. -/
theorem traceInv_afterReset (c : Cfg) (b : Bit) (m : Memory) (e : Env) : TraceInv (afterReset c b m e) :=
  ⟨fun _ => rfl, fun h => nomatch h⟩

theorem cycleTraceInv_afterReset (c : Cfg) (b : Bit) (m : Memory) (e : Env) : CycleTraceInv (afterReset c b m e) := rfl

/-- Reset either forgets DRV or keeps it. -/
theorem eventInv_resetEdge {s : State} (hc : s.cfg.wf = true) (hm : Memory.wf s.drv = true) : EventInv (resetEdge s) := by
  rw [resetEdge_eq_afterReset]
  refine eventInv_afterReset _ _ hc ?_
  split_ifs
  exacts [wf_unknown, hm]

/-- The first edge of a launch decides about DRV; at the second, chip-select is high. -/
theorem launch_eq_afterReset {c : Cfg} {s : State} (hs : s.cfg.wf = true) (hc : c.wf = true) :
    launch c s = .next (afterReset c 0 (if (outputs s).csN = 0 then Memory.unknown else s.drv) s.env) :=
  launch_next c s hs hc

/-- Settles O36: each register of `State.reset` is written there. -/
theorem registersAfterReset : Obligations.RegistersAfterReset :=
  ⟨rfl, rfl, rfl, rfl, rfl, rfl, rfl, rfl, rfl, rfl, outputs_afterReset _ _ _ _⟩

/-- Settles O42: `State.reset` and the state after a launch are both `afterReset` states, which meet the three invariants. -/
theorem invariantsAfterReset : Obligations.InvariantsAfterReset := by
  refine ⟨eventInv_afterReset _ _ (by decide) wf_reset, traceInv_afterReset _ _ _ _, cycleTraceInv_afterReset _ _ _ _, ?_⟩
  intro c s hs hc hm
  refine ⟨_, launch_eq_afterReset hs hc, eventInv_afterReset _ _ hc ?_, traceInv_afterReset _ _ _ _,
    cycleTraceInv_afterReset _ _ _ _, rfl, ?_, ?_⟩
  · split_ifs
    exacts [wf_unknown, hm]
  · intro hlow a
    simp [afterReset, hlow]
  · intro hhigh
    simp [afterReset, hhigh]

end Sys2Proof.Machine
end

/-! ### Ports and phase -/

section
namespace Sys2Proof.Machine

theorem ite_one_zero_eq_one_iff (p : Prop) [Decidable p] : (if p then (1 : Bit) else 0) = 1 ↔ p := by
  split_ifs with h <;> simp [h]

/-- Settles O56: two ports are a condition on POS, the others are the state's own fields. -/
theorem outputPorts : Obligations.OutputPorts := fun _ =>
  ⟨rfl, rfl, ite_one_zero_eq_one_iff _, ite_one_zero_eq_one_iff _, rfl, rfl⟩

/-- The length of the longest position, which `phWidth` measures. -/
def maxLen (c : Cfg) : Nat := (c.steps.map Step.dwell).foldl max (max (lenFrame c) c.pollCycles)

theorem phWidth_eq (c : Cfg) : phWidth c = Nat.log2 (maxLen c - 1) + 1 := rfl

/-- The start value of the maximum and every dwell are below it. -/
theorem le_maxLen {c : Cfg} {n : Nat} (h : n ∈ max (lenFrame c) c.pollCycles :: c.steps.map Step.dwell) : n ≤ maxLen c :=
  (List.max?_eq_some_iff.1 List.max?_cons').2 n h

theorem dwellCycles_le_maxLen {c : Cfg} {n : Nat} (h : n < c.nSteps) : c.dwellCycles n ≤ maxLen c := by
  refine le_maxLen (List.mem_cons_of_mem _ ?_)
  rw [Cfg.dwellCycles, Cfg.stepCell, List.getD_eq_getElem _ _ h]
  exact List.mem_map_of_mem (List.getElem_mem h)

theorem len_le_maxLen {c : Cfg} (hc : c.wf = true) {p : Pos} (hp : p.wf c = true) : len c p ≤ maxLen c := by
  have hstart : max (lenFrame c) c.pollCycles ≤ maxLen c := le_maxLen List.mem_cons_self
  have hframe : lenFrame c ≤ maxLen c := le_trans (le_max_left _ _) hstart
  have hpoll : c.pollCycles ≤ maxLen c := le_trans (le_max_right _ _) hstart
  have hone : 1 ≤ maxLen c := le_trans (Cfg.wf_poll hc) hpoll
  cases p with
  | bInit k => exact hframe
  | bClear r => exact hframe
  | aShow n r => exact hframe
  | aClear r => exact hframe
  | aDwell n => exact dwellCycles_le_maxLen (of_decide_eq_true hp)
  | sleep => exact hpoll
  | _ => exact hone

/-- Settles O45: PH is at most the longest position's last PH, the number whose bits `W_PH` counts. -/
theorem phaseFitsItsWidth : Obligations.PhaseFitsItsWidth := by
  intro c p n hc hp hn
  have hlast : n ≤ maxLen c - 1 := Nat.le_sub_one_of_lt (lt_of_lt_of_le hn (len_le_maxLen hc hp))
  exact lt_of_le_of_lt hlast Nat.lt_log2_self

end Sys2Proof.Machine
end

/-! ### The chip's latch and the commands of the framer -/

section
namespace Sys2Proof.Machine

theorem chipLatch_noop (c : Cfg) (v : Byte) : chipLatch c c.regNoop v = id :=
  funext fun _ => if_pos rfl

theorem chipLatch_enumerated {c : Cfg} {r : Byte} (v : Byte) (hn : r ≠ c.regNoop) (hr : r ∈ c.addresses) :
    chipLatch c r v = (Memory.write · r v) :=
  funext fun _ => (if_neg hn).trans (if_pos hr)

theorem chipLatch_reserved {c : Cfg} {r : Byte} (v : Byte) (hn : r ≠ c.regNoop) (hr : r ∉ c.addresses) :
    chipLatch c r v = fun _ => Memory.unknown :=
  funext fun _ => (if_neg hn).trans (if_neg hr)

theorem drvSets_write (m : Memory) (a v : Byte) : DrvSets a v m (Memory.write m a v) :=
  ⟨read_write_same m a v, fun b hb => read_write_other m a b v hb, wf_write m a v⟩

/-- Settles O8: the three branches of `chipLatch`. -/
theorem chipLatchByAddress : Obligations.ChipLatchByAddress := by
  intro c r v m
  refine ⟨?_, fun hn hr => ?_, fun hn hr a => ?_⟩
  · rintro rfl
    rw [chipLatch_noop, id]
  · rw [chipLatch_enumerated v hn hr]
    exact drvSets_write m r v
  · rw [chipLatch_reserved v hn hr, read_unknown]

end Sys2Proof.Machine
end

/-! ### The command of a frame word -/

section
namespace Sys2Proof.Machine

theorem complete_congr {f g : State → State} {s : State} (h : f s = g s) : complete f s = complete g s := by
  simp only [complete, whenRunning, h]

/-- A command that latches as the chip does by its address is `writeRegister`. -/
theorem complete_eq_writeRegister {r v : Byte} {f : State → State} {latch : Memory → Memory} {s : State}
    (hf : f s = sendFrame r v latch s) (hl : chipLatch s.cfg r v = latch) :
    complete f s = complete (writeRegister r v) s :=
  complete_congr (by rw [hf, writeRegister, hl])

theorem exec_ite {p : Prop} [Decidable p] {i j : Instr} {s : State} {o : Host.Outcome State Fault Refusal}
    (hi : p → exec i s = o) (hj : ¬ p → exec j s = o) : exec (if p then i else j) s = o := by
  split_ifs with h
  exacts [hi h, hj h]

/-- 40_framer.md R85: whichever command the register byte selects, its frame and its latch are those of `writeRegister`: the no-op's address, 13
that write their entry, and the reserved ones. -/
theorem exec_decodeCommand (r v : Byte) (s : State) :
    exec (decodeCommand s.cfg r v) s = complete (writeRegister r v) s := by
  unfold decodeCommand
  refine exec_ite (fun h => ?_) fun hn => ?_
  · subst h
    exact complete_eq_writeRegister rfl (chipLatch_noop _ _)
  · iterate 13
      refine exec_ite (fun h => ?_) fun _ => ?_
      · subst h
        exact complete_eq_writeRegister rfl (chipLatch_enumerated v hn (by simp [Cfg.addresses]))
    rfl

/-- The operation of a frame position sends the frame `W` holds. -/
theorem exec_decodeFrame (w : FrameWord) (s : State) :
    exec (decodeFrame s.cfg w) s = complete (writeRegister (frameReg w) (frameVal w)) s :=
  exec_decodeCommand _ _ s

end Sys2Proof.Machine
end

/-! ### The position table and the invariant -/

section
namespace Sys2Proof.Machine

/-- A successor step index is below N_STEPS because `successor` compares, and the first one because there is a step. -/
theorem successor_wf {c : Cfg} (hc : c.wf = true) (e : Bool) {p : Pos} (hp : p.wf c = true) :
    (successor c e p).wf c = true := by
  have hsteps : 0 < c.nSteps := Cfg.wf_nSteps hc
  cases p with
  | sample => cases e <;> rfl
  | aStatus => exact decide_eq_true hsteps
  | aShow n r => simp only [successor]; split <;> exact hp
  | aDwell n =>
    simp only [successor]
    split_ifs with h
    · exact decide_eq_true h
    · rfl
  | bInit _ | bClear _ | aClear _ => simp only [successor]; split <;> rfl
  | _ => rfl

/-- The alert positions are entered by the edge at `SAMPLE` and left at the end of `A_RESTORE`. -/
theorem successor_isAlert (c : Cfg) (e : Bool) (p : Pos) :
    (successor c e p).isAlert = true ↔ (p = .sample ∧ e = true) ∨ (p.isAlert = true ∧ p ≠ .aRestore) := by
  cases p with
  | sample => cases e <;> simp [successor, sampleTarget, Pos.isAlert]
  | bInit _ | bClear _ | aShow _ _ | aDwell _ | aClear _ => simp only [successor]; split <;> simp [Pos.isAlert]
  | _ => simp [successor, Pos.isAlert]

/-- The positions with `IND = 1` are entered at the end of `A_IND_ON` and left at the end of `A_IND_OFF`. -/
theorem successor_indHigh (c : Cfg) (e : Bool) (p : Pos) :
    (successor c e p).indHigh = true ↔ p = .aIndOn ∨ (p.indHigh = true ∧ p ≠ .aIndOff) := by
  cases p with
  | sample => cases e <;> simp [successor, sampleTarget, Pos.indHigh]
  | bInit _ | bClear _ | aShow _ _ | aDwell _ | aClear _ => simp only [successor]; split <;> simp [Pos.indHigh]
  | _ => simp [successor, Pos.indHigh]

/-- Only `SAMPLE` looks at the edge. -/
theorem successor_edge (c : Cfg) (e : Bool) {p : Pos} (h : p ≠ .sample) : successor c e p = successor c false p := by
  cases p with
  | sample => exact absurd rfl h
  | _ => rfl

/-- `t` has the registers the row of `s`'s position leaves in the table of 43_loop.md R154, `v` being the sample. W, POS, PH, TRACE and the
environment are left open. -/
structure RowEffect (v : Bit) (s t : State) : Prop where
  cfg    : t.cfg = s.cfg
  fault  : t.fault = s.fault
  fcode  : t.fcode = s.fcode
  drv    : Memory.wf s.drv = true → Memory.wf t.drv = true
  prev   : t.prev = if s.pos = .tEnd then s.cur else s.prev
  cur    : t.cur = if s.pos = .sample then v else s.cur
  ind    : t.ind = if s.pos = .aIndOn then 1 else if s.pos = .aIndOff then 0 else s.ind
  mstate : t.mstate =
    if s.pos = .sample ∧ edge v s.prev = true then .alerted else if s.pos = .aRestore then .idle else s.mstate

/-- `t` is at the start of position `q`, with the word of a frame position loaded (43_loop.md R155). -/
structure AtStart (q : Pos) (t : State) : Prop where
  pos    : t.pos = q
  ph     : t.ph = 0
  loaded : ∀ w, word t.cfg q = some w → t.w = w

theorem atStart_enter (q : Pos) (s : State) : AtStart q (enter q s) :=
  ⟨rfl, rfl, fun w hw => by rw [enter_w, show word s.cfg q = some w from hw, Option.getD_some]⟩

theorem atStart_arrive (q : Pos) (s : State) : AtStart q (arrive q s) := atStart_enter q _

theorem RowEffect.enter {v : Bit} {s t : State} (h : RowEffect v s t) (q : Pos) : RowEffect v s (enter q t) := { h with }

theorem RowEffect.arrive {v : Bit} {s t : State} (h : RowEffect v s t) (q : Pos) : RowEffect v s (arrive q t) := { h with }

/-- The invariant goes over from a position to its successor. -/
theorem RowEffect.inv {v : Bit} {s t : State} (hd : RowEffect v s t) (h : Inv s) (hf : s.fault = 0)
    (hl : AtStart (successor s.cfg (edge v s.prev) s.pos) t) : Inv t := by
  have hcode : t.fcode = 0 := hd.fcode.trans (h.codeZero.1 hf)
  exact
    { cfgOk := by rw [hd.cfg, h.cfgOk]
      posOk := by rw [hl.pos, hd.cfg, successor_wf h.cfgOk _ h.posOk]
      phOk := by rw [hl.ph]; exact len_pos (hd.cfg ▸ h.cfgOk) _
      drvOk := hd.drv h.drvOk
      wordOk := by rw [hl.pos]; exact hl.loaded
      alerted := by
        rw [hl.pos, successor_isAlert, ← h.alerted, hd.mstate]
        split_ifs <;> simp_all
      indOk := by
        rw [hl.pos, successor_indHigh, ← h.indOk, hd.ind]
        split_ifs <;> simp_all
      alertCur := by
        rw [hl.pos, successor_isAlert, hd.cur, hd.prev]
        rintro (⟨hs, he⟩ | ⟨ha, -⟩)
        · simpa [hs, edge] using he
        · have hs : s.pos ≠ .sample := by rintro hs; simp [hs, Pos.isAlert] at ha
          have ht : s.pos ≠ .tEnd := by rintro ht; simp [ht, Pos.isAlert] at ha
          rw [if_neg hs, if_neg ht]
          exact h.alertCur ha
      codeZero := by rw [hd.fault, hd.fcode, h.codeZero]
      codeBus := by simp [hcode]
      codeSens := by simp [hcode]
      codeMax := by simp [hcode] }

/-! ### What leaves POS as it is -/

theorem len_of_isFrame (c : Cfg) {p : Pos} (hp : p.isFrame = true) : len c p = lenFrame c := by
  cases p <;> simp_all [len, Pos.isFrame]

/-- BusFault in a cycle of the chip-select window of a frame position. -/
theorem Inv.raiseBus {s : State} (h : Inv s) (hp : s.pos.isFrame = true) {n : Nat} (hn : n < csEnd s.cfg) : Inv (raiseBus n s) :=
  { h with
    phOk := lt_of_lt_of_eq (hn.trans (csEnd_lt_lenFrame h.cfgOk)) (len_of_isFrame _ hp).symm
    drvOk := wf_unknown
    codeZero := by simp
    codeBus := fun _ => ⟨hp, hn⟩
    codeSens := by simp
    codeMax := by simp }

theorem Inv.raiseSensor {s : State} (h : Inv s) (hp : s.pos = .sample) : Inv (raise .sensor s) :=
  { h with
    codeZero := by simp [Cause.code]
    codeBus := by simp [Cause.code]
    codeSens := fun _ => hp
    codeMax := by simp [Cause.code] }

theorem Inv.countOn {s : State} (h : Inv s) (hf : s.fault = 0) (hn : s.ph < len s.cfg s.pos - 1) : Inv (countOn s) := by
  obtain ⟨d, es, heq, hd, -⟩ := countOn_eq s
  have hcode : s.fcode = 0 := h.codeZero.1 hf
  have hwf : Memory.wf d = true := by
    rcases hd with rfl | rfl
    exacts [h.drvOk, wf_chipLatch _ _ _ _ h.drvOk]
  rw [heq]
  exact
    { h with
      phOk := Nat.add_lt_of_lt_sub hn
      drvOk := hwf
      codeBus := by simp [hcode] }

theorem Inv.withdrawBytes {s : State} (h : Inv s) : Inv (withdrawBytes s) := { h with }

theorem Inv.withEnv {s : State} (h : Inv s) (e : Env) : Inv { s with env := e } := { h with }

/-- The frame of a frame position opens with `W` as it is. -/
theorem openFrame_w_fields (s : State) : (openFrame (frameReg s.w) (frameVal s.w) s).w = s.w := frameWord_fields s.w

theorem Inv.openFrame {s : State} (h : Inv s) : Inv (openFrame (frameReg s.w) (frameVal s.w) s) :=
  { h with
    phOk := Nat.zero_lt_of_lt h.phOk
    wordOk := fun w hw => (openFrame_w_fields s).trans (h.wordOk w hw)
    codeBus := fun hc => ⟨(h.codeBus hc).1, Nat.zero_lt_of_lt (h.codeBus hc).2⟩ }

/-! ### The clock edge -/

/-- At the cycle level, the effect of a position's last edge is its row's. -/
theorem rowEffect_lastEdgeEffect (p : Pins) (s : State) : RowEffect p.sensorIn s (lastEdgeEffect p s) := by
  cases hp : s.pos with
  | sample => simp only [lastEdgeEffect, hp, takeSample_ok]; constructor <;> simp [hp]
  | _ => simp only [lastEdgeEffect, hp]; constructor <;> simp [hp]

/-- Settles O44: an edge resets, leaves a halted block, fails, counts on, or goes over to the successor. -/
theorem clockEdgeKeepsTheInvariant : Obligations.ClockEdgeKeepsTheInvariant := by
  intro s t p h ht
  obtain ⟨hc, rfl⟩ := cstep_cases ht
  rcases clockEdge_cases p s with
    ⟨-, he⟩ | ⟨-, -, he⟩ | ⟨-, hp, hn, he⟩ | ⟨-, hp, -, he⟩ | ⟨hf, hn, he⟩ | ⟨hf, -, -, he⟩ <;> rw [he]
  · exact (eventInv_resetEdge hc h.drvOk).1
  · exact h
  · exact h.withdrawBytes.raiseBus hp hn
  · exact h.raiseSensor hp
  · exact h.countOn hf hn
  · exact ((rowEffect_lastEdgeEffect p s).arrive _).inv h hf (atStart_arrive _ _)

end Sys2Proof.Machine
end

/-! ### The event-level step -/

section
namespace Sys2Proof.Machine

theorem RowEffect.emit {v : Bit} {s t : State} (h : RowEffect v s t) (e : Event) : RowEffect v s (emit e t) := { h with }

theorem RowEffect.withEnv {v : Bit} {s t : State} (h : RowEffect v s t) (e : Env) : RowEffect v s { t with env := e } := { h with }

theorem RowEffect.withPos {v : Bit} {s t : State} (h : RowEffect v s t) (p : Pos) : RowEffect v s { t with pos := p } := { h with }

/-- The table gives a frame position no effect beside its frame. -/
theorem rowEffect_frame {s : State} (v : Bit) (hp : s.pos.isFrame = true) : RowEffect v s s := by
  have hd := rowEffect_lastEdgeEffect ⟨0, v, 0, 0⟩ s
  have hs : lastEdgeEffect ⟨0, v, 0, 0⟩ s = s := by
    cases h : s.pos <;> simp_all [lastEdgeEffect, Pos.isFrame]
  rwa [hs] at hd

/-- What the step of a running block does: a failure of the frame or of the sample at its position, or its row's effect and the successor. -/
inductive RowOutcome (s t : State) : Prop where
  | busFault (n : Nat) (frame : s.pos.isFrame = true) (window : n < csEnd s.cfg)
      (next : t = raiseBus n (openFrame (frameReg s.w) (frameVal s.w) s))
  | sensorFault (sample : s.pos = .sample) (next : t = raise .sensor { s with env := s.env.drawSensor.2 })
  | done (v : Bit) (effect : RowEffect v s t) (arrived : AtStart (successor s.cfg (edge v s.prev) s.pos) t)

/-- The outcome of a position whose operation leaves the move to the sequencer. -/
theorem RowOutcome.of_enter {s t u : State} {p : Pos} (hp : s.pos = p) (hne : p ≠ .sample) (hd : RowEffect 0 s u)
    (ht : t = enter (successor s.cfg false p) u) : RowOutcome s t := by
  subst hp
  rw [ht, ← successor_edge s.cfg (edge 0 s.prev) hne]
  exact .done 0 (hd.enter _) (atStart_enter _ _)

theorem fetch_frame {s : State} (hp : s.pos.isFrame = true) : fetch s = some (decodeFrame s.cfg s.w) := by
  cases h : s.pos <;> simp_all [fetch, Pos.isFrame]

theorem moveOn_frame {p : Pos} {u : State} (hp : p.isFrame = true) (h : u.fault = 0) :
    moveOn p u = enter (successor u.cfg false p) u := by
  cases p <;> simp_all [moveOn, Pos.isFrame]

theorem moveOn_sample (u : State) : moveOn .sample u = u := ite_self _

theorem moveOn_tEnd (u : State) : moveOn .tEnd u = u := ite_self _

theorem moveOn_sleep (u : State) : moveOn .sleep u = u := ite_self _

/-- In a frame position the frame in `W` is cut or completes. -/
theorem rowOutcome_frame {s u : State} (hr : Running s) (hp : s.pos.isFrame = true)
    (hx : exec (decodeFrame s.cfg s.w) s = .next u) : RowOutcome s (moveOn s.pos u) := by
  rw [exec_decodeFrame, complete_running _ _ hr, writeRegister] at hx
  cases hx
  rcases sendFrame_cases (frameReg s.w) (frameVal s.w) (chipLatch s.cfg (frameReg s.w) (frameVal s.w)) s with he | ⟨n, hn, he⟩ <;>
    rw [he]
  · have hne : s.pos ≠ .sample := by rintro h; simp [h, Pos.isFrame] at hp
    have hd : RowEffect 0 s (sentFrame (frameReg s.w) (frameVal s.w) (chipLatch s.cfg (frameReg s.w) (frameVal s.w) s.drv) s) :=
      { rowEffect_frame 0 hp with drv := wf_chipLatch _ _ _ _ }
    exact .of_enter rfl hne hd (moveOn_frame hp (hd.fault.trans hr.2))
  · exact .busFault n hp hn (if_pos rfl)

/-- At `SAMPLE` the read fails, or its value is the row's sample. -/
theorem rowOutcome_sample {s : State} (hph : s.ph = 0) (hp : s.pos = .sample) : RowOutcome s (sampleOp s) := by
  unfold sampleOp
  obtain ⟨err, v⟩ := s.env.drawSensor.1
  have herr : err = 0 ∨ err = 1 := by revert err; decide
  rcases herr with rfl | rfl
  · have hd := (rowEffect_lastEdgeEffect ⟨0, v, 0, 0⟩ s).withEnv s.env.drawSensor.2
    simp only [lastEdgeEffect, hp, takeSample_ok] at hd
    rw [takeSample_ok]
    refine .done v hd ⟨by rw [hp]; rfl, hph, fun w hw => ?_⟩
    rw [hp, successor] at hw
    cases hedge : edge v s.prev <;> simp [hedge, sampleTarget, word] at hw
  · exact .sensorFault hp (takeSample_err _ _ rfl)

theorem complete_running_cases {f : State → State} {s u : State} (hr : Running s) (h : complete f s = .next u) : u = f s := by
  rw [complete_running f s hr] at h
  cases h
  rfl

theorem execDwell_cases {n : Nat} {s u : State} (h : execDwell n s = .next u) : complete (dwellOp n) s = .next u := by
  unfold execDwell at h
  split_ifs at h
  exact h

/-- `B_START` alone has no operation; the block lands and moves on. -/
theorem rowOutcome_start {s : State} (hr : Ready s) (hn : fetch s = none) : RowOutcome s (moveOn s.pos s) := by
  have hp : s.pos = .bStart := by cases h : s.pos <;> simp_all [fetch]
  have hd := rowEffect_lastEdgeEffect ⟨0, 0, 0, 0⟩ s
  simp only [lastEdgeEffect, hp] at hd
  rw [hp]
  exact .of_enter hp nofun hd (if_neg ((fault_ne_one s).2 hr.1.2))

/-- The operation of a position and the move on, at each of the 13 positions that have an operation. -/
theorem rowOutcome_moveOn {s u : State} {i : Instr} (hr : Ready s) (hi : fetch s = some i) (hx : exec i s = .next u) :
    RowOutcome s (moveOn s.pos u) := by
  obtain ⟨hrun, -, hph, -⟩ := hr
  have hf : s.fault ≠ 1 := (fault_ne_one s).2 hrun.2
  by_cases hframe : s.pos.isFrame = true
  · rw [fetch_frame hframe] at hi
    cases hi
    exact rowOutcome_frame hrun hframe hx
  have hd := rowEffect_lastEdgeEffect ⟨0, 0, 0, 0⟩ s
  cases hp : s.pos <;> simp only [fetch, hp, Option.some.injEq, lastEdgeEffect, reduceCtorEq] at hi hd <;> subst hi
  case bInit | bClear | aShow | aClear => exact absurd (by rw [hp]; rfl) hframe
  case bStatus | aIndOn | aStatus | aIndOff | aRestore =>
    obtain rfl := complete_running_cases hrun hx
    exact .of_enter hp nofun hd (if_neg hf)
  case aDwell n =>
    obtain rfl := complete_running_cases hrun (execDwell_cases hx)
    exact .of_enter hp nofun (hd.emit (.dwell n)) (if_neg hf)
  case sample =>
    obtain rfl := complete_running_cases hrun hx
    rw [moveOn_sample]
    exact rowOutcome_sample hph hp
  case tEnd =>
    obtain rfl := complete_running_cases hrun hx
    rw [moveOn_tEnd]
    exact .done 0 hd ⟨by rw [hp]; rfl, hph, by rw [hp]; nofun⟩
  case sleep =>
    obtain rfl := complete_running_cases hrun hx
    rw [moveOn_sleep]
    exact .done 0 ((hd.emit .sleep).withPos .sample) ⟨by rw [hp]; rfl, hph, by rw [hp]; nofun⟩

/-- The invariant after any outcome of a row; a failure halts the block, an arrival is at the start of a position. -/
theorem RowOutcome.eventInv {s t : State} (ho : RowOutcome s t) (h : Inv s) (hf : s.fault = 0) : EventInv t := by
  cases ho with
  | busFault n frame window next => subst next; exact ⟨h.openFrame.raiseBus frame window, fun h0 => nomatch h0⟩
  | sensorFault sample next => subst next; exact ⟨(h.withEnv _).raiseSensor sample, fun h0 => nomatch h0⟩
  | done v effect arrived => exact ⟨effect.inv h hf arrived, fun _ => arrived.ph⟩

/-- Settles O43: a step is a reset edge, a halted block's, the landing at `B_START` or the row of its position. -/
theorem stepKeepsTheInvariant : Obligations.StepKeepsTheInvariant := by
  rintro s t ⟨h, hph⟩ hst
  obtain ⟨hc, hstep⟩ := step_cases hst
  rcases hstep with ⟨-, rfl⟩ | ⟨-, -, rfl⟩ | ⟨hr, hn, rfl⟩ | ⟨hr, i, u, hi, hx, rfl⟩
  · exact eventInv_resetEdge hc h.drvOk
  · exact ⟨h, hph⟩
  · exact (rowOutcome_start hr hn).eventInv h hr.1.2
  · exact (rowOutcome_moveOn hr hi hx).eventInv h hr.1.2

end Sys2Proof.Machine
end

/-! ### Which operations write which registers -/

section
namespace Sys2Proof.Machine

/-- What no frame writes: PREV, CUR, IND, MSTATE, CFG and the port `rst`. -/
structure Kept where
  prev   : Bit
  cur    : Bit
  ind    : Bit
  mstate : MState
  cfg    : Cfg
  rst    : Bit

def State.kept (s : State) : Kept := ⟨s.prev, s.cur, s.ind, s.mstate, s.cfg, s.rst⟩

/-- The operation `f` leaves the view `g` of the state as it is. -/
structure Keeps {α : Type} (g : State → α) (f : State → State) : Prop where
  eq : ∀ s, g (f s) = g s

namespace Keeps

variable {α β : Type} {g : State → α} {f f' : State → State}

theorem whenRunning (hf : Keeps g f) : Keeps g (whenRunning f) :=
  ⟨fun s => whenRunning_keeps (P := fun t => g t = g s) (fun t h => (hf.eq t).trans h) s rfl⟩

theorem inPos {p : Pos} (hp : Keeps g fun s => { s with pos := p, ph := 0 }) (hf : Keeps g f) : Keeps g (inPos p f) :=
  Keeps.whenRunning ⟨fun s => (hf.eq _).trans (hp.eq s)⟩

theorem foldl {f : β → State → State} (hf : ∀ b, Keeps g (f b)) (l : List β) : Keeps g fun s => l.foldl (fun t b => f b t) s :=
  ⟨fun s => foldl_keeps (P := fun t => g t = g s) (fun b t h => ((hf b).eq t).trans h) l s rfl⟩

theorem forRows {f : Fin 8 → State → State} (hf : ∀ r, Keeps g (f r)) : Keeps g (forRows f) := Keeps.foldl hf rows

theorem comp (hf : Keeps g f) (hf' : Keeps g f') : Keeps g fun s => f (f' s) := ⟨fun s => (hf.eq _).trans (hf'.eq s)⟩

/-- What keeps a view keeps every part of it. -/
theorem part (h : Keeps State.kept f) (k : Kept → α) : Keeps (fun s => k s.kept) f := ⟨fun s => congrArg k (h.eq s)⟩

theorem ite (p : State → Prop) [DecidablePred p] (hf : Keeps g f) : Keeps g fun s => if p s then f s else s :=
  ⟨fun s => by split_ifs; exacts [hf.eq s, rfl]⟩

end Keeps

theorem complete_keeps {α : Type} {g : State → α} {f : State → State} {s t : State} (h : complete f s = .next t)
    (hf : Keeps g f) : g t = g s := by
  rw [(complete_cases h).2]
  exact hf.whenRunning.eq s

/-- Bytes and latch may depend on the state, as those taken from CFG do. -/
theorem sendFrame_kept (r v : State → Byte) (f : State → Memory → Memory) :
    Keeps State.kept fun s => sendFrame (r s) (v s) (f s) s :=
  ⟨fun s => by rcases sendFrame_cases (r s) (v s) (f s) s with h | ⟨n, -, h⟩ <;> rw [h] <;> rfl⟩

theorem writeRegister_kept (r v : State → Byte) : Keeps State.kept fun s => writeRegister (r s) (v s) s :=
  sendFrame_kept r v _

theorem clearOp_kept : Keeps State.kept clearOp := Keeps.forRows fun _ => (writeRegister_kept _ _).whenRunning

theorem showOp_kept (p : Pattern) : Keeps State.kept (showOp p) := Keeps.forRows fun _ => (writeRegister_kept _ _).whenRunning

theorem clearAt_kept (pos : Fin 8 → Pos) : Keeps State.kept (clearAt pos) :=
  Keeps.forRows fun _ => Keeps.inPos ⟨fun _ => rfl⟩ (writeRegister_kept _ _)

theorem configWrites_kept : Keeps State.kept configWrites :=
  Keeps.foldl (fun _ => Keeps.inPos ⟨fun _ => rfl⟩ (writeRegister_kept _ _)) initIndices

theorem initOp_kept : Keeps State.kept initOp := by
  unfold initOp
  exact Keeps.comp (Keeps.whenRunning ⟨fun _ => rfl⟩) (Keeps.comp (clearAt_kept _) configWrites_kept)

theorem bootOp_kept : Keeps State.kept bootOp := by
  unfold bootOp
  exact Keeps.comp (Keeps.inPos ⟨fun _ => rfl⟩ ⟨fun _ => rfl⟩) initOp_kept

theorem cinematicStep_kept (n : Nat) : Keeps State.kept (cinematicStep n) := by
  unfold cinematicStep
  exact Keeps.comp (Keeps.inPos ⟨fun _ => rfl⟩ ⟨fun _ => rfl⟩)
    (Keeps.forRows fun _ => Keeps.inPos ⟨fun _ => rfl⟩ (writeRegister_kept _ _))

theorem cinematic_kept : Keeps State.kept cinematic :=
  ⟨fun s => (Keeps.foldl cinematicStep_kept (List.range s.cfg.nSteps)).eq s⟩

/-- `alert()` as one composition. -/
theorem alertOp_eq :
    alertOp = fun s =>
      inPos .aRestore (fun t => enter .tEnd (leaveAlert (statusOp .monitoring t)))
        (clearAt .aClear (inPos .aIndOff indClrOp (cinematic (inPos .aStatus (statusOp .alert) (inPos .aIndOn indSetOp s))))) := rfl

/-- Of the registers no frame writes, `alert()` writes IND and MSTATE alone. -/
theorem alertOp_keeps : Keeps (fun s => (s.prev, s.cur, s.cfg, s.rst)) alertOp := by
  have part {f : State → State} (h : Keeps State.kept f) : Keeps (fun s => (s.prev, s.cur, s.cfg, s.rst)) f :=
    h.part fun k => (k.prev, k.cur, k.cfg, k.rst)
  rw [alertOp_eq]
  refine Keeps.comp (Keeps.inPos ⟨fun _ => rfl⟩ ⟨fun _ => rfl⟩) ?_
  refine Keeps.comp (part (clearAt_kept _)) ?_
  refine Keeps.comp (Keeps.inPos ⟨fun _ => rfl⟩ ⟨fun _ => rfl⟩) ?_
  refine Keeps.comp (part cinematic_kept) ?_
  exact Keeps.comp (Keeps.inPos ⟨fun _ => rfl⟩ ⟨fun _ => rfl⟩) (Keeps.inPos ⟨fun _ => rfl⟩ ⟨fun _ => rfl⟩)

/-- Of these, `sample()` writes CUR and MSTATE alone. -/
theorem sampleOp_keeps : Keeps (fun s => (s.prev, s.ind, s.cfg, s.rst)) sampleOp :=
  ⟨fun s => by unfold sampleOp takeSample; split_ifs <;> rfl⟩

/-- `tick()` as one composition. -/
theorem tickOp_eq :
    tickOp = fun s =>
      inPos .tEnd tendOp ((fun t => if t.mstate = .alerted then whenRunning alertOp t else t) (inPos .sample sampleOp s)) := rfl

theorem tickOp_keeps : Keeps (fun s => (s.cfg, s.rst)) tickOp := by
  have hsample : Keeps (fun s => (s.cfg, s.rst)) sampleOp := ⟨fun s => congrArg (fun x => x.2.2) (sampleOp_keeps.eq s)⟩
  have halert : Keeps (fun s => (s.cfg, s.rst)) alertOp := ⟨fun s => congrArg (fun x => x.2.2) (alertOp_keeps.eq s)⟩
  rw [tickOp_eq]
  refine Keeps.comp (Keeps.inPos ⟨fun _ => rfl⟩ ⟨fun _ => rfl⟩) ?_
  exact Keeps.comp (halert.whenRunning.ite (·.mstate = .alerted)) (Keeps.inPos ⟨fun _ => rfl⟩ hsample)

theorem iterOp_keeps : Keeps (fun s => (s.cfg, s.rst)) iterOp := by
  unfold iterOp
  exact Keeps.comp (Keeps.inPos ⟨fun _ => rfl⟩ ⟨fun _ => rfl⟩) tickOp_keeps

theorem execShow_cases {o : ShowOperand} {s t : State} (h : execShow o s = .next t) : ∃ p, complete (showOp p) s = .next t := by
  unfold execShow at h
  split at h
  · exact ⟨_, h⟩
  · split_ifs at h

/-- What each instruction may write, of what no frame writes. -/
theorem exec_kept {i : Instr} {s t : State} (h : exec i s = .next t) :
    t.kept = s.kept ∨ (i = .tend ∧ t.kept = { s.kept with prev := t.prev }) ∨
      (i = .sample ∧ t.kept = { s.kept with cur := t.cur, mstate := t.mstate }) ∨
      ((i = .indSet ∨ i = .indClr) ∧ t.kept = { s.kept with ind := t.ind }) ∨
      (i = .alert ∧ t.kept = { s.kept with ind := t.ind, mstate := t.mstate }) ∨
      ((i = .tick ∨ i = .iter) ∧ t.cfg = s.cfg ∧ t.rst = s.rst) := by
  cases i with
  | tend =>
    have hk := complete_keeps (g := fun s => (s.cur, s.ind, s.mstate, s.cfg, s.rst)) h ⟨fun _ => rfl⟩
    simp_all [State.kept]
  | indSet | indClr =>
    have hk := complete_keeps (g := fun s => (s.prev, s.cur, s.mstate, s.cfg, s.rst)) h ⟨fun _ => rfl⟩
    simp_all [State.kept]
  | sample =>
    have hk := complete_keeps h sampleOp_keeps
    simp_all [State.kept]
  | alert =>
    have hk := complete_keeps h alertOp_keeps
    simp_all [State.kept]
  | tick =>
    have hk := complete_keeps h tickOp_keeps
    simp_all
  | iter =>
    have hk := complete_keeps h iterOp_keeps
    simp_all
  | clear => exact .inl (complete_keeps h clearOp_kept)
  | showPattern o =>
    obtain ⟨p, hp⟩ := execShow_cases h
    exact .inl (complete_keeps hp (showOp_kept p))
  | initialise => exact .inl (complete_keeps h initOp_kept)
  | boot => exact .inl (complete_keeps h bootOp_kept)
  | dwell n => exact .inl (complete_keeps (execDwell_cases h) ⟨fun _ => rfl⟩)
  | status | sleep => exact .inl (complete_keeps h ⟨fun _ => rfl⟩)
  | _ => exact .inl (complete_keeps h (sendFrame_kept _ _ _))

/-- Settles O39: in each of the six cases of `exec_kept`, a field that is not among the written ones is equal. -/
theorem registerWriters : Obligations.RegisterWriters := by
  intro i s t h
  rcases exec_kept h with
    hk | ⟨rfl, hk⟩ | ⟨rfl, hk⟩ | ⟨rfl | rfl, hk⟩ | ⟨rfl, hk⟩ | ⟨rfl | rfl, hk⟩ <;> simp_all [State.kept]

end Sys2Proof.Machine
end

/-! ### The command map -/

section
namespace Sys2Proof.Machine

/-- R64's map as a table: each address of the enumeration with the command it selects. -/
def commandMap (c : Cfg) : List (Byte × (Byte → Instr)) :=
  [(c.regNoop, .noop), (1, .row1), (2, .row2), (3, .row3), (4, .row4), (5, .row5), (6, .row6), (7, .row7), (8, .row8),
    (c.regDecode, .decode), (c.regIntensity, .intensity), (c.regScanlimit, .scanlimit), (c.regShutdown, .shutdown),
    (c.regDisptest, .disptest)]

/-- The command the first entry for the register byte `r` selects, and `WREG` where there is none. -/
def selectCommand : List (Byte × (Byte → Instr)) → Byte → Byte → Instr
  | [], r, v => .wreg r v
  | (a, f) :: l, r, v => if r = a then f v else selectCommand l r v

theorem decodeCommand_eq_selectCommand (c : Cfg) (r v : Byte) : decodeCommand c r v = selectCommand (commandMap c) r v := rfl

theorem commandMap_addresses (c : Cfg) : (commandMap c).map Prod.fst = c.addresses := rfl

/-- Where no two entries share an address, each entry is the one its address selects. -/
theorem selectCommand_of_mem {l : List (Byte × (Byte → Instr))} (hl : (l.map Prod.fst).Nodup) {r : Byte} {f : Byte → Instr}
    (h : (r, f) ∈ l) (v : Byte) : selectCommand l r v = f v := by
  induction l with
  | nil => cases h
  | cons x l ih =>
    obtain ⟨a, g⟩ := x
    obtain ⟨hhead, htail⟩ := List.nodup_cons.1 hl
    rcases List.mem_cons.1 h with heq | hmem
    · cases heq
      exact if_pos rfl
    · have hne : r ≠ a := by rintro rfl; exact hhead (List.mem_map.2 ⟨_, hmem, rfl⟩)
      exact (if_neg hne).trans (ih htail hmem)

theorem selectCommand_cases (l : List (Byte × (Byte → Instr))) (r v : Byte) :
    selectCommand l r v = .wreg r v ∨ ∃ f, (r, f) ∈ l ∧ selectCommand l r v = f v := by
  induction l with
  | nil => exact .inl rfl
  | cons x l ih =>
    obtain ⟨a, g⟩ := x
    by_cases hr : r = a
    · subst hr
      exact .inr ⟨g, List.mem_cons_self, if_pos rfl⟩
    · rw [show selectCommand ((a, g) :: l) r v = selectCommand l r v from if_neg hr]
      exact ih.imp_right fun ⟨f, hf, h⟩ => ⟨f, List.mem_cons_of_mem _ hf, h⟩

/-- 30_encoding.md R64: under a well-formed CFG an address of the enumeration is read as its command. -/
theorem decodeFrame_of_mem {c : Cfg} (hc : c.wf = true) {r : Byte} {f : Byte → Instr} (h : (r, f) ∈ commandMap c) (v : Byte) :
    decodeFrame c (frameWord r v) = f v := by
  rw [decodeFrame, frameReg_frameWord, frameVal_frameWord, decodeCommand_eq_selectCommand]
  exact selectCommand_of_mem (commandMap_addresses c ▸ Cfg.wf_nodup hc) h v

theorem encode_commandMap (c : Cfg) (v : Byte) : ∀ x ∈ commandMap c, encode c (x.2 v) = some (.frames [frameWord x.1 v]) := by
  simp [commandMap, encode]

/-- Settles O3: the command is an entry of the map or `WREG`, and the frame of either is its two bytes. -/
theorem encodeOfDecodedFrame : Obligations.EncodeOfDecodedFrame := by
  intro c w
  have hw : frameWord (frameReg w) (frameVal w) = w := frameWord_fields w
  rw [decodeFrame, decodeCommand_eq_selectCommand]
  rcases selectCommand_cases (commandMap c) (frameReg w) (frameVal w) with h | ⟨f, hf, h⟩ <;> rw [h]
  · rw [encode, hw]
  · rw [encode_commandMap c _ _ hf, hw]

/-- The command of row register `r` (R63). -/
def rowCommand : Fin 8 → Byte → Instr
  | 0 => .row1
  | 1 => .row2
  | 2 => .row3
  | 3 => .row4
  | 4 => .row5
  | 5 => .row6
  | 6 => .row7
  | 7 => .row8

theorem rowCommand_mem (c : Cfg) (r : Fin 8) : (regRow r, rowCommand r) ∈ commandMap c := by
  fin_cases r <;> simp [commandMap, regRow, rowCommand]

theorem decodeFrame_row {c : Cfg} (hc : c.wf = true) (r : Fin 8) (v : Byte) :
    decodeFrame c (frameWord (regRow r) v) = rowCommand r v := decodeFrame_of_mem hc (rowCommand_mem c r) v

/-- The command of the `k`-th configuration write (41_matrix_ops.md R111). -/
def initCommand : Fin 6 → Byte → Instr
  | 0 => .shutdown
  | 1 => .disptest
  | 2 => .decode
  | 3 => .scanlimit
  | 4 => .intensity
  | 5 => .shutdown

theorem initCommand_mem (c : Cfg) (k : Fin 6) : ((c.initPair k).1, initCommand k) ∈ commandMap c := by
  fin_cases k <;> simp [commandMap, Cfg.initPair, initCommand]

theorem decodeFrame_init {c : Cfg} (hc : c.wf = true) (k : Fin 6) :
    decodeFrame c (frameWord (c.initPair k).1 (c.initPair k).2) = initCommand k (c.initPair k).2 :=
  decodeFrame_of_mem hc (initCommand_mem c k) _

theorem rowCommand_mem_rows (r : Fin 8) (v : Byte) :
    rowCommand r v ∈ ([.row1 v, .row2 v, .row3 v, .row4 v, .row5 v, .row6 v, .row7 v, .row8 v] : List Instr) := by
  fin_cases r <;> simp [rowCommand]

/-- A frame position sends a byte to a row register or one of the configuration writes. -/
theorem word_cases {c : Cfg} {p : Pos} {w : FrameWord} (h : word c p = some w) :
    (∃ r v, w = frameWord (regRow r) v) ∨ ∃ k, w = frameWord (c.initPair k).1 (c.initPair k).2 := by
  cases p with
  | bInit k => cases h; exact .inr ⟨k, rfl⟩
  | bClear r | aShow n r | aClear r => cases h; exact .inl ⟨r, _, rfl⟩
  | _ => cases h

/-- Settles O5: `word_cases`, and each of these frames is read as the command of its address. -/
theorem sequencerEmitsOnlyEnumeratedFrames : Obligations.SequencerEmitsOnlyEnumeratedFrames := by
  intro c p w hc hw
  rcases word_cases hw with ⟨r, v, rfl⟩ | ⟨k, rfl⟩
  · rw [decodeFrame_row hc]
    exact .inl ⟨v, rowCommand_mem_rows r v⟩
  · rw [decodeFrame_init hc]
    right
    fin_cases k <;> simp [initCommand, Cfg.initPair]

/-- Settles O1: each table word is a closed number. -/
theorem specWordsDecode : Obligations.SpecWordsDecode :=
  ⟨rfl, rfl, rfl, rfl, rfl, rfl, rfl, rfl, rfl, rfl, rfl⟩

end Sys2Proof.Machine
end

/-! ### Images -/

section
namespace Sys2Proof.Machine

/-! The three kinds of longer image are told apart by their lengths. -/

theorem showWords_length (p : Pattern) : (showWords p).length = 8 := rfl

theorem initWords_length (c : Cfg) : c.initWords.length = 14 := rfl

theorem alertWords_length (c : Cfg) : c.alertWords.length = 8 * (c.nSteps + 1) := Laws.FrameCount.alert c

theorem clearWords_eq_showWords : clearWords = showWords Pattern.blank := rfl

theorem decodeFrames_of_length_ne_one (c : Cfg) {ws : List FrameWord} (h : ws.length ≠ 1) :
    decodeFrames c ws =
      if ws = c.initWords then .ok .initialise else if ws = c.alertWords then .ok .alert else decodeRows ws := by
  match ws, h with
  | [], _ => rfl
  | [_], h => exact absurd rfl h
  | _ :: _ :: _, _ => rfl

theorem decodeFrames_initWords (c : Cfg) : decodeFrames c c.initWords = .ok .initialise := by
  rw [decodeFrames_of_length_ne_one c (by simp [initWords_length]), if_pos rfl]

/-- The image of `ALERT` has a multiple of eight frames, that of `INIT` has 14. -/
theorem decodeFrames_alertWords (c : Cfg) : decodeFrames c c.alertWords = .ok .alert := by
  have hlen : c.alertWords.length ≠ 1 := by rw [alertWords_length]; omega
  have hne : c.alertWords ≠ c.initWords :=
    ne_of_apply_ne List.length (by rw [alertWords_length, initWords_length]; omega)
  rw [decodeFrames_of_length_ne_one c hlen, if_neg hne, if_pos rfl]

theorem decodeRows_showWords (p : Pattern) : decodeRows (showWords p) = .ok (namePattern p) := by
  simp only [showWords, rows, List.map, decodeRows, frameVal_frameWord, Pattern.row, ite_true]

/-- The image of `SHOW` has eight frames, and that of `ALERT` more, since there is a step. -/
theorem decodeFrames_showWords {c : Cfg} (hc : c.wf = true) (p : Pattern) :
    decodeFrames c (showWords p) = .ok (namePattern p) := by
  have hsteps : 1 ≤ c.nSteps := Cfg.wf_nSteps hc
  have hlen : (showWords p).length ≠ 1 := by simp [showWords_length]
  have hinit : showWords p ≠ c.initWords := ne_of_apply_ne List.length (by rw [showWords_length, initWords_length]; omega)
  have halert : showWords p ≠ c.alertWords :=
    ne_of_apply_ne List.length (by rw [showWords_length, alertWords_length]; omega)
  rw [decodeFrames_of_length_ne_one c hlen, if_neg hinit, if_neg halert, decodeRows_showWords]

/-- Settles O2: one frame is read by the command map, longer images by `decodeFrames`, port bits as they stand. -/
theorem decodeOfEncode : Obligations.DecodeOfEncode := by
  intro c hc i im h
  cases i with
  | wreg r v => cases h; rfl
  | clear => cases h; exact decodeFrames_showWords hc Pattern.blank
  | showPattern o =>
    obtain ⟨p, hp, rfl⟩ := Option.map_eq_some_iff.1 h
    rw [canonical, hp]
    exact decodeFrames_showWords hc p
  | initialise | boot => cases h; exact decodeFrames_initWords c
  | alert => cases h; exact decodeFrames_alertWords c
  | status m => cases h; cases m <;> rfl
  | indSet | indClr => cases h; rfl
  | sample | dwell | tend | sleep | tick | iter => cases h
  | _ =>
    cases h
    exact congrArg Except.ok (decodeFrame_of_mem hc (by simp [commandMap]) _)

end Sys2Proof.Machine
end

/-! ### The wire decoder -/

section
namespace Sys2Proof.Machine

/-! What the decoder does with a segment of constant wires (30_encoding.md R72). -/

/-- Inside a frame, a wire vector with chip-select low adds `mosi` if `sclk` rises. -/
theorem wireFrames_cons_low {d : WireState} (hd : d.last.csN = 0) {x : Wires} (hx : x.csN = 0) (xs : List Wires) :
    wireFrames d (x :: xs) = wireFrames ⟨x, if d.last.sclk = 0 ∧ x.sclk = 1 then d.bits ++ [x.mosi] else d.bits⟩ xs := by
  simp [wireFrames, hd, hx]

/-- Wires that stay add no bit. -/
theorem wireFrames_hold {x : Wires} (hx : x.csN = 0) (bits : List Bit) (n : Nat) (xs : List Wires) :
    wireFrames ⟨x, bits⟩ (List.replicate n x ++ xs) = wireFrames ⟨x, bits⟩ xs := by
  induction n with
  | zero => rfl
  | succ n ih =>
    have hstay : ¬ (x.sclk = 0 ∧ x.sclk = 1) := by rintro ⟨h0, h1⟩; simp [h0] at h1
    rw [List.replicate_succ, List.cons_append, wireFrames_cons_low hx hx, if_neg hstay, ih]

theorem wireFrames_low {d : WireState} (hd : d.last.csN = 0) {x : Wires} (hx : x.csN = 0) {n : Nat} (hn : 1 ≤ n) (xs : List Wires) :
    wireFrames d (List.replicate n x ++ xs) =
      wireFrames ⟨x, if d.last.sclk = 0 ∧ x.sclk = 1 then d.bits ++ [x.mosi] else d.bits⟩ xs := by
  obtain ⟨m, rfl⟩ := Nat.exists_eq_add_of_le' hn
  rw [List.replicate_succ, List.cons_append, wireFrames_cons_low hd hx, wireFrames_hold hx]

/-- The lead of a frame: chip-select falls, and `sclk` is low. -/
theorem wireFrames_lead (b : Bit) {n : Nat} (hn : 1 ≤ n) (xs : List Wires) :
    wireFrames .start (List.replicate n ⟨0, 0, b⟩ ++ xs) = wireFrames ⟨⟨0, 0, b⟩, []⟩ xs := by
  obtain ⟨m, rfl⟩ := Nat.exists_eq_add_of_le' hn
  have hfall : wireFrames .start (⟨0, 0, b⟩ :: (List.replicate m ⟨0, 0, b⟩ ++ xs)) =
      wireFrames ⟨⟨0, 0, b⟩, []⟩ (List.replicate m ⟨0, 0, b⟩ ++ xs) := rfl
  rw [List.replicate_succ, List.cons_append, hfall, wireFrames_hold rfl]

/-- Between frames the decoder stays at its start. -/
theorem wireFrames_idle (n : Nat) (xs : List Wires) :
    wireFrames .start (List.replicate n Wires.idle ++ xs) = wireFrames .start xs := by
  induction n with
  | zero => rfl
  | succ n ih => exact ih

/-- The gap of a frame: chip-select rises, and the frame is what its bits are. -/
theorem wireFrames_gap {d : WireState} (hd : d.last.csN = 0) {n : Nat} (hn : 1 ≤ n) (xs : List Wires) :
    wireFrames d (List.replicate n Wires.idle ++ xs) = frameOfBits d.bits :: wireFrames .start xs := by
  obtain ⟨m, rfl⟩ := Nat.exists_eq_add_of_le' hn
  have hrise : wireFrames d (Wires.idle :: (List.replicate m Wires.idle ++ xs)) =
      frameOfBits d.bits :: wireFrames .start (List.replicate m Wires.idle ++ xs) := by
    simp [wireFrames, hd, Wires.idle, WireState.start]
  rw [List.replicate_succ, List.cons_append, hrise, wireFrames_idle]

/-! ### The bits of a frame -/

/-- One bit period: `sclk` low, then high. -/
def bitWires (h : Nat) (b : Bit) : List Wires := List.replicate h ⟨0, 0, b⟩ ++ List.replicate h ⟨0, 1, b⟩

/-- `sclk` rises once in a bit period. -/
theorem wireFrames_bit {d : WireState} (hd : d.last.csN = 0) {h : Nat} (hh : 1 ≤ h) (b : Bit) (xs : List Wires) :
    wireFrames d (bitWires h b ++ xs) = wireFrames ⟨⟨0, 1, b⟩, d.bits ++ [b]⟩ xs := by
  rw [bitWires, List.append_assoc, wireFrames_low hd rfl hh, wireFrames_low rfl rfl hh]
  simp

/-- The bit periods of a frame and its trail add exactly their bits. -/
theorem wireFrames_bits {d : WireState} (hd : d.last.csN = 0) {h n : Nat} (hh : 1 ≤ h) (hn : 1 ≤ n) (bs : List Bit) (xs : List Wires) :
    wireFrames d (bs.flatMap (bitWires h) ++ (List.replicate n ⟨0, 0, 0⟩ ++ xs)) = wireFrames ⟨⟨0, 0, 0⟩, d.bits ++ bs⟩ xs := by
  induction bs generalizing d with
  | nil => rw [List.flatMap_nil, List.nil_append, wireFrames_low hd rfl hn]; simp
  | cons b bs ih => rw [List.flatMap_cons, List.append_assoc, wireFrames_bit hd hh, ih rfl]; simp

/-- The bits of a word in wire order (R62). -/
def wordBits (w : FrameWord) : List Bit := (List.range 16).map fun i => wordBit w (15 - i)

/-- Shifting the next bit in undoes one place of a right shift. -/
theorem ushiftRight_succ_push (w : FrameWord) (k : Nat) : (w >>> (k + 1)) <<< 1 ||| (wordBit w k).setWidth 16 = w >>> k := by
  apply BitVec.eq_of_getLsbD_eq
  intro i hi
  cases i with
  | zero => simp [wordBit]
  | succ i => simp [wordBit, hi, Nat.add_assoc, Nat.add_comm 1 i]

/-- After `n` bits the decoder's word is the upper `n` bits of the word on the wires. -/
theorem wordOfBits_take (w : FrameWord) {n : Nat} (hn : n ≤ 16) :
    wordOfBits ((List.range n).map fun i => wordBit w (15 - i)) = w >>> (16 - n) := by
  induction n with
  | zero => exact (BitVec.ushiftRight_eq_zero (Nat.le_refl 16)).symm
  | succ n ih =>
    have hk : 16 - n = 15 - n + 1 := by omega
    have hstep := ushiftRight_succ_push w (15 - n)
    rw [← hk, ← ih (by omega)] at hstep
    rw [List.range_succ, List.map_append, wordOfBits, List.foldl_append, Nat.succ_sub_succ]
    exact hstep

theorem frameOfBits_wordBits (w : FrameWord) : frameOfBits (wordBits w) = .whole w := by
  have hlen : (wordBits w).length = 16 := by simp [wordBits]
  rw [frameOfBits, if_pos hlen, wordBits, wordOfBits_take w (Nat.le_refl 16), Nat.sub_self, BitVec.ushiftRight_zero]

/-! ### The waveform in segments (40_framer.md R100) -/

theorem map_range_const {α : Type} {f : Nat → α} {x : α} {n : Nat} (h : ∀ i, i < n → f i = x) :
    (List.range n).map f = List.replicate n x := by
  rw [List.eq_replicate_iff]
  simpa using h

theorem map_range_add {α : Type} (f : Nat → α) (m n : Nat) :
    (List.range (m + n)).map f = (List.range m).map f ++ (List.range n).map fun i => f (m + i) := by
  rw [List.range_add, List.map_append, List.map_map]; rfl

theorem map_range_mul {α : Type} (f : Nat → α) (m n : Nat) :
    (List.range (n * m)).map f = (List.range n).flatMap fun i => (List.range m).map fun j => f (i * m + j) := by
  induction n with
  | zero => simp
  | succ n ih => rw [Nat.succ_mul, map_range_add, ih, List.range_succ, List.flatMap_append, List.flatMap_singleton]

theorem wave_lead {c : Cfg} (w : FrameWord) {n : Nat} (h : n < c.tLead) : wave c w n = ⟨0, 0, wordBit w 15⟩ := if_pos h

/-- Bit period `i` of 16, most significant bit first. -/
theorem wave_bit {c : Cfg} (w : FrameWord) {i j : Nat} (hi : i < 16) (hj : j < 2 * c.tHalf) :
    wave c w (c.tLead + (i * (2 * c.tHalf) + j)) = ⟨0, if c.tHalf ≤ j then 1 else 0, wordBit w (15 - i)⟩ := by
  have hend : i * (2 * c.tHalf) + j < 32 * c.tHalf := by
    have hle : (i + 1) * (2 * c.tHalf) ≤ 16 * (2 * c.tHalf) := Nat.mul_le_mul_right _ hi
    rw [Nat.succ_mul] at hle
    omega
  have hdiv : (i * (2 * c.tHalf) + j) / (2 * c.tHalf) = i := by
    rw [Nat.mul_comm, Nat.mul_add_div (by omega), Nat.div_eq_of_lt hj, Nat.add_zero]
  have hmod : (i * (2 * c.tHalf) + j) % (2 * c.tHalf) = j := by
    rw [Nat.mul_comm, Nat.mul_add_mod, Nat.mod_eq_of_lt hj]
  rw [wave, if_neg (by omega), if_pos (by omega)]
  simp only [Nat.add_sub_cancel_left, hdiv, hmod]

theorem wave_trail {c : Cfg} (w : FrameWord) {n : Nat} (h : n < c.tTrail) : wave c w (c.tLead + 32 * c.tHalf + n) = ⟨0, 0, 0⟩ := by
  rw [wave, if_neg (by omega), if_neg (by omega), if_pos (by unfold csEnd; omega)]

theorem wave_gap (c : Cfg) (w : FrameWord) (n : Nat) : wave c w (csEnd c + n) = Wires.idle := by
  have hend : csEnd c = c.tLead + 32 * c.tHalf + c.tTrail := rfl
  rw [wave, if_neg (by omega), if_neg (by omega), if_neg (by omega)]

theorem wave_period {c : Cfg} (w : FrameWord) {i : Nat} (hi : i < 16) :
    (List.range (2 * c.tHalf)).map (fun j => wave c w (c.tLead + (i * (2 * c.tHalf) + j))) =
      bitWires c.tHalf (wordBit w (15 - i)) := by
  rw [bitWires, Nat.two_mul, map_range_add]
  congr 1
  · refine map_range_const fun j hj => ?_
    rw [← Nat.two_mul, wave_bit w hi (by omega), if_neg (by omega)]
  · refine map_range_const fun j hj => ?_
    rw [← Nat.two_mul, wave_bit w hi (by omega), if_pos (by omega)]

/-- The wires of a frame position are its four segments. -/
theorem frameWires_eq (c : Cfg) (w : FrameWord) :
    frameWires c w =
      List.replicate c.tLead ⟨0, 0, wordBit w 15⟩ ++
        ((wordBits w).flatMap (bitWires c.tHalf) ++ (List.replicate c.tTrail ⟨0, 0, 0⟩ ++ List.replicate c.tGap Wires.idle)) := by
  have hbits : (List.range (32 * c.tHalf)).map (fun n => wave c w (c.tLead + n)) = (wordBits w).flatMap (bitWires c.tHalf) := by
    rw [show 32 * c.tHalf = 16 * (2 * c.tHalf) by omega, map_range_mul, wordBits, List.flatMap_map]
    exact List.flatMap_congr fun i hi => wave_period w (List.mem_range.1 hi)
  rw [frameWires, lenFrame, map_range_add, map_range_const fun n _ => wave_gap c w n, csEnd, map_range_add,
    map_range_const fun n => wave_trail w, map_range_add, map_range_const fun n => wave_lead w, hbits]
  simp only [List.append_assoc]

/-- From its start, the decoder reads a frame's wires as the frame and is at its start again. -/
theorem wireFrames_frameWires {c : Cfg} (hc : c.wf = true) (w : FrameWord) (xs : List Wires) :
    wireFrames .start (frameWires c w ++ xs) = .whole w :: wireFrames .start xs := by
  obtain ⟨hlead, hhalf, htrail, hgap⟩ := Cfg.wf_times hc
  rw [frameWires_eq, List.append_assoc, wireFrames_lead _ hlead, List.append_assoc, List.append_assoc,
    wireFrames_bits rfl hhalf htrail, wireFrames_gap rfl hgap, List.nil_append, frameOfBits_wordBits]

theorem wireFrames_flatMap_frameWires {c : Cfg} (hc : c.wf = true) (ws : List FrameWord) :
    wireFrames .start (ws.flatMap (frameWires c)) = ws.map .whole := by
  induction ws with
  | nil => rfl
  | cons w ws ih => rw [List.flatMap_cons, wireFrames_frameWires hc, ih, List.map_cons]

theorem wireEvents_flatMap_frameWires {c : Cfg} (hc : c.wf = true) (ws : List FrameWord) :
    wireEvents .start (ws.flatMap (frameWires c)) = frameEvents ws := by
  rw [wireEvents, wireFrames_flatMap_frameWires hc, List.flatMap_map]; rfl

end Sys2Proof.Machine
end

/-! ### A frame position at the cycle level -/

section
namespace Sys2Proof.Machine

/-- Pins that neither reset the block nor, from phase `m` on, cut a frame inside its chip-select window (40_framer.md R102). -/
def QuietFrom (c : Cfg) (m : Nat) (ps : List Pins) : Prop :=
  ∀ n p, ps[n]? = some p → p.rst = 0 ∧ (m + n < csEnd c → p.busErr ≠ 1)

theorem QuietFrom.head {c : Cfg} {m : Nat} {p : Pins} {ps : List Pins} (h : QuietFrom c m (p :: ps)) :
    p.rst = 0 ∧ (m < csEnd c → p.busErr ≠ 1) := h 0 p rfl

theorem QuietFrom.tail {c : Cfg} {m : Nat} {p : Pins} {ps : List Pins} (h : QuietFrom c m (p :: ps)) :
    QuietFrom c (m + 1) ps := fun n q hq => by
  obtain ⟨hr, he⟩ := h (n + 1) q hq
  exact ⟨hr, fun hn => he (by omega)⟩

/-- A bus draw that does not fail has its first error after the window, if at all. -/
theorem busErr_of_failsAt_none {c : Cfg} {ps : List Pins} (h : failsAt c (busDrawOf ps) = none) {n : Nat} {p : Pins}
    (hp : ps[n]? = some p) (hn : n < csEnd c) : p.busErr ≠ 1 := by
  unfold busDrawOf at h
  split at h
  next k hk =>
    have hlate : ¬ k < csEnd c := fun hlt => by simp [failsAt, hlt] at h
    obtain ⟨_, _, hbefore⟩ := List.findIdx?_eq_some_iff_getElem.1 hk
    obtain ⟨hlen, rfl⟩ := List.getElem?_eq_some_iff.1 hp
    simpa using hbefore n (by omega)
  next hk => simpa using List.findIdx?_eq_none_iff.1 hk p (List.mem_of_getElem? hp)

theorem quietFrom_zero {c : Cfg} {ps : List Pins} (hr : ∀ p ∈ ps, p.rst = 0) (h : failsAt c (busDrawOf ps) = none) :
    QuietFrom c 0 ps :=
  fun _ p hp => ⟨hr p (List.mem_of_getElem? hp), fun hn => busErr_of_failsAt_none h hp (by omega)⟩

/-- In a frame position that is not cut, an edge before the last counts on. -/
theorem clockEdge_frame {s : State} {p : Pins} (hf : s.fault = 0) (hp : s.pos.isFrame = true) (hr : p.rst = 0)
    (he : s.ph < csEnd s.cfg → p.busErr ≠ 1) (hn : s.ph + 1 < lenFrame s.cfg) : clockEdge p s = countOn s := by
  have hcut : ¬ (s.pos.isFrame = true ∧ s.ph < csEnd s.cfg ∧ p.busErr = 1) := fun ⟨_, hw, h1⟩ => he hw h1
  have hsample : ¬ (s.pos = .sample ∧ p.sensorErr = 1) := by rintro ⟨h, -⟩; simp [h, Pos.isFrame] at hp
  have hlast : s.ph < len s.cfg s.pos - 1 := by rw [len_of_isFrame _ hp]; omega
  rw [clockEdge, if_neg (by simp [hr]), if_neg ((fault_ne_one s).2 hf), if_neg hcut, if_neg hsample, if_pos hlast]

/-- The wires in the cycles of a run inside a frame position are the waveform of `W` from the phase where the run starts. -/
theorem coutputs_frame (ps : List Pins) {s : State} (hs : Running s) (hp : s.pos.isFrame = true) (hq : QuietFrom s.cfg s.ph ps)
    (hn : s.ph + ps.length < lenFrame s.cfg) :
    (coutputs ps s).map Outputs.bus = (List.range' s.ph (ps.length + 1)).map (wave s.cfg s.w) := by
  have hbus : (outputs s).bus = wave s.cfg s.w s.ph := wires_driven s (.inl hp)
  induction ps generalizing s with
  | nil => simp [coutputs, hbus]
  | cons p ps ih =>
    obtain ⟨hcfg, hf⟩ := hs
    rw [List.length_cons] at hn
    obtain ⟨d, es, heq, -⟩ := countOn_eq s
    have hedge : cstep p s = .next { s with ph := s.ph + 1, drv := d, trace := s.trace ++ es } := by
      rw [cstep_next p s hcfg, clockEdge_frame hf hp hq.head.1 hq.head.2 (by omega), heq]
    rw [coutputs, hedge, List.map_cons, hbus, List.length_cons, List.range'_succ, List.map_cons]
    congr 1
    exact ih ⟨hcfg, hf⟩ hp hq.tail (show s.ph + 1 + ps.length < lenFrame s.cfg by omega) (wires_driven _ (.inl hp))

/-- Settles O6: the decoder by induction on the words, frame by frame in the four segments of the waveform; the circuit by `coutputs_frame`. -/
theorem wireDecoderRecoversFrames : Obligations.WireDecoderRecoversFrames := by
  refine ⟨fun c hc ws => ⟨wireFrames_flatMap_frameWires hc ws, wireEvents_flatMap_frameWires hc ws⟩, ?_⟩
  intro s ps hs hp hph hr hfail hlen
  have hrun := coutputs_frame ps hs hp (hph ▸ quietFrom_zero hr hfail) (by omega)
  rw [hrun, hph, hlen, ← List.range_eq_range', frameWires]

end Sys2Proof.Machine
end

/-! ### The chip-select discipline of the trace -/

section
namespace Sys2Proof.Machine

/-- Events that follow a legal trace are taken from the phase it ends in. -/
theorem tracePhase_append {es : List Event} {q : BusPhase} (h : tracePhase es = some q) (fs : List Event) :
    tracePhase (es ++ fs) = fs.foldlM busNext q := by
  rw [tracePhase, List.foldlM_append, ← tracePhase, h]
  rfl

/-- Every step that runs starts between frames, and its events lead back there or to the halt. -/
theorem TraceInv.append {s t : State} {es : List Event} (h : TraceInv s) (hf : s.fault = 0) (ht : t.trace = s.trace ++ es)
    (hend : (t.fault = 0 ∧ es.foldlM busNext .between = some .between) ∨ (t.fault = 1 ∧ es.foldlM busNext .between = some .halted)) :
    TraceInv t := by
  have hphase : tracePhase t.trace = es.foldlM busNext .between := by rw [ht, tracePhase_append (h.1 hf)]
  rcases hend with ⟨htf, he⟩ | ⟨htf, he⟩
  · exact ⟨fun _ => hphase.trans he, fun h1 => by simp [htf] at h1⟩
  · exact ⟨fun h0 => by simp [htf] at h0, fun _ => hphase.trans he⟩

theorem moveOn_trace (p : Pos) (u : State) : (moveOn p u).trace = u.trace := by
  unfold moveOn
  split_ifs
  · rfl
  · cases p <;> rfl

theorem moveOn_fault (p : Pos) (u : State) : (moveOn p u).fault = u.fault := by
  unfold moveOn
  split_ifs
  · rfl
  · cases p <;> rfl

theorem TraceInv.moveOn {u : State} (h : TraceInv u) (p : Pos) : TraceInv (moveOn p u) := by
  rwa [TraceInv, moveOn_fault, moveOn_trace]

/-- 40_framer.md R80, R81: a frame adds its four events, or `CS(0)` and the failure. -/
theorem TraceInv.sendFrame {s : State} (h : TraceInv s) (hf : s.fault = 0) (r v : Byte) (latch : Memory → Memory) :
    TraceInv (sendFrame r v latch s) := by
  rcases sendFrame_cases r v latch s with he | ⟨n, -, he⟩ <;> rw [he]
  · exact h.append hf rfl (.inl ⟨hf, rfl⟩)
  · exact h.append hf (List.append_assoc _ [Event.cs 0] [Event.fault .bus]) (.inr ⟨rfl, rfl⟩)

/-- 42_monitor.md R125: a sample adds `RD`, or the sensor's failure. -/
theorem TraceInv.takeSample {s : State} (h : TraceInv s) (hf : s.fault = 0) (d : SensorDraw) : TraceInv (takeSample d s) := by
  by_cases he : d.err = 1
  · rw [takeSample_err d s he]
    exact h.append hf rfl (.inr ⟨rfl, rfl⟩)
  · rw [Machine.takeSample, if_neg he]
    exact h.append hf rfl (.inl ⟨hf, rfl⟩)

/-- The operation of each position adds one event between frames or none, but for a frame's and a sample's. -/
theorem TraceInv.exec_fetch {s u : State} {i : Instr} (h : TraceInv s) (hr : Running s) (hi : fetch s = some i)
    (hx : exec i s = .next u) : TraceInv u := by
  have hf : s.fault = 0 := hr.2
  by_cases hframe : s.pos.isFrame = true
  · rw [fetch_frame hframe] at hi
    cases hi
    rw [exec_decodeFrame] at hx
    obtain rfl := complete_running_cases hr hx
    exact h.sendFrame hf _ _ _
  cases hp : s.pos <;> simp only [fetch, hp, Option.some.injEq, reduceCtorEq] at hi <;> subst hi
  case bInit | bClear | aShow | aClear => exact absurd (by rw [hp]; rfl) hframe
  case bStatus | aIndOn | aStatus | aIndOff | aRestore | sleep =>
    obtain rfl := complete_running_cases hr hx
    exact h.append hf rfl (.inl ⟨hf, rfl⟩)
  case aDwell n =>
    obtain rfl := complete_running_cases hr (execDwell_cases hx)
    exact h.append hf rfl (.inl ⟨hf, rfl⟩)
  case sample =>
    obtain rfl := complete_running_cases hr hx
    exact TraceInv.takeSample (s := { s with env := s.env.drawSensor.2 }) h hf _
  case tEnd =>
    obtain rfl := complete_running_cases hr hx
    exact h

/-- Settles O46: a reset empties the trace, a halted block adds nothing, and a running block adds the events of its position. -/
theorem stepKeepsChipSelectDiscipline : Obligations.StepKeepsChipSelectDiscipline := by
  intro s t h hst
  obtain ⟨-, hstep⟩ := step_cases hst
  rcases hstep with ⟨-, rfl⟩ | ⟨-, -, rfl⟩ | ⟨-, -, rfl⟩ | ⟨hr, i, u, hi, hx, rfl⟩
  · exact traceInv_afterReset _ _ _ _
  · exact h
  · exact h.moveOn _
  · exact (h.exec_fetch hr.1 hi hx).moveOn _

end Sys2Proof.Machine
end

/-! ### The trace at the clock edges -/

section
namespace Sys2Proof.Machine

/-! Where a block stands in its frame (40_framer.md R101), by the cycle of the frame. -/

/-- The phase in cycle `n` of a frame. -/
def framePhase (c : Cfg) (n : Nat) : BusPhase :=
  if n < byteEnd c 1 then .selected
  else if n < byteEnd c 2 then .oneByte
  else if n < csEnd c then .twoBytes
  else .between

theorem busPhase_noFrame {s : State} (hf : s.fault = 0) (hp : s.pos.isFrame = false) : busPhase s = .between := by
  simp [busPhase, hf, hp]

theorem busPhase_frame {s : State} (hf : s.fault = 0) (hp : s.pos.isFrame = true) : busPhase s = framePhase s.cfg s.ph := by
  simp [busPhase, framePhase, hf, hp]

section
variable {c : Cfg} {n : Nat}

theorem framePhase_selected (h : n < byteEnd c 1) : framePhase c n = .selected := if_pos h

theorem framePhase_oneByte (h1 : byteEnd c 1 ≤ n) (h2 : n < byteEnd c 2) : framePhase c n = .oneByte := by
  rw [framePhase, if_neg (by omega), if_pos h2]

theorem framePhase_twoBytes (hc : c.wf = true) (h2 : byteEnd c 2 ≤ n) (he : n < csEnd c) : framePhase c n = .twoBytes := by
  obtain ⟨-, h12, -⟩ := byteEnd_order hc
  rw [framePhase, if_neg (by omega), if_neg (by omega), if_pos he]

theorem framePhase_gap (hc : c.wf = true) (he : csEnd c ≤ n) : framePhase c n = .between := by
  obtain ⟨-, h12, h2e⟩ := byteEnd_order hc
  rw [framePhase, if_neg (by omega), if_neg (by omega), if_neg (by omega)]

end

/-- Chip-select is high in the last cycle of every position (T_GAP ≥ 1). -/
theorem busPhase_lastCycle {s : State} (hc : s.cfg.wf = true) (hf : s.fault = 0) (hn : ¬ s.ph < len s.cfg s.pos - 1) :
    busPhase s = .between := by
  cases hp : s.pos.isFrame with
  | false => exact busPhase_noFrame hf hp
  | true =>
    have hgap : csEnd s.cfg < lenFrame s.cfg := csEnd_lt_lenFrame hc
    rw [len_of_isFrame _ hp] at hn
    rw [busPhase_frame hf hp, framePhase_gap hc (by omega)]

/-! Counting on through a frame: what joins the trace at each edge. -/

/-- The events of the edge where PH becomes `n` (40_framer.md R101). -/
def frameEdgeEvents (c : Cfg) (w : FrameWord) (n : Nat) : List Event :=
  if n = byteEnd c 1 then [.tx (frameReg w)]
  else if n = byteEnd c 2 then [.tx (frameVal w)]
  else if n = csEnd c then [.cs 1]
  else []

theorem countOn_noFrame {s : State} (hp : s.pos.isFrame = false) : countOn s = { s with ph := s.ph + 1 } := if_pos hp

theorem countOn_frame {s : State} (hc : s.cfg.wf = true) (hp : s.pos.isFrame = true) :
    countOn s =
      { s with
        ph := s.ph + 1, drv := if s.ph + 1 = csEnd s.cfg then latchWord s else s.drv
        trace := s.trace ++ frameEdgeEvents s.cfg s.w (s.ph + 1) } := by
  obtain ⟨-, h12, h2e⟩ := byteEnd_order hc
  unfold countOn frameEdgeEvents
  simp only [hp, Bool.true_eq_false, if_false]
  by_cases h1 : s.ph + 1 = byteEnd s.cfg 1
  · simp (disch := omega) only [if_pos, if_neg]; rfl
  by_cases h2 : s.ph + 1 = byteEnd s.cfg 2
  · simp (disch := omega) only [if_pos, if_neg]; rfl
  by_cases he : s.ph + 1 = csEnd s.cfg
  · simp (disch := omega) only [if_pos, if_neg]; rfl
  · simp only [if_neg h1, if_neg h2, if_neg he, List.append_nil]

/-- Each event of a frame joins the trace at the edge where the frame goes over to the phase the event leads to. -/
theorem foldlM_frameEdgeEvents {c : Cfg} (hc : c.wf = true) (w : FrameWord) (n : Nat) :
    (frameEdgeEvents c w (n + 1)).foldlM busNext (framePhase c n) = some (framePhase c (n + 1)) := by
  obtain ⟨-, h12, h2e⟩ := byteEnd_order hc
  unfold frameEdgeEvents
  split_ifs with h1 h2 he
  · rw [framePhase_selected (by omega), framePhase_oneByte (by omega) (by omega)]; rfl
  · rw [framePhase_oneByte (by omega) (by omega), framePhase_twoBytes hc (by omega) (by omega)]; rfl
  · rw [framePhase_twoBytes hc (by omega) (by omega), framePhase_gap hc (by omega)]; rfl
  · have hstay {m : Nat} (hm : n + 1 ≠ m) : n + 1 < m ↔ n < m := by omega
    simp only [framePhase, hstay h1, hstay h2, hstay he]
    rfl

theorem CycleTraceInv.countOn {s : State} (h : CycleTraceInv s) (hc : s.cfg.wf = true) (hf : s.fault = 0) : CycleTraceInv (countOn s) := by
  unfold CycleTraceInv at h
  cases hp : s.pos.isFrame with
  | false =>
    rw [busPhase_noFrame hf hp] at h
    rw [countOn_noFrame hp]
    refine h.trans (congrArg some (Eq.symm ?_))
    exact busPhase_noFrame hf hp
  | true =>
    rw [busPhase_frame hf hp] at h
    have htrace := (tracePhase_append h _).trans (foldlM_frameEdgeEvents hc s.w s.ph)
    rw [countOn_frame hc hp]
    refine htrace.trans (congrArg some (Eq.symm ?_))
    exact busPhase_frame hf hp

/-! A failing frame takes its bytes off the trace (log 13). -/

/-- The phases with chip-select low. -/
def BusPhase.inFrame : BusPhase → Bool
  | .between => false
  | .selected => true
  | .oneByte => true
  | .twoBytes => true
  | .halted => false

theorem busPhase_inFrame {s : State} (hf : s.fault = 0) (hp : s.pos.isFrame = true) (hn : s.ph < csEnd s.cfg) :
    (busPhase s).inFrame = true := by
  rw [busPhase_frame hf hp, framePhase, if_pos hn]
  split_ifs <;> rfl

/-- Inside a frame the last event is a byte, before which the trace was inside the frame too, or the frame's `CS(0)`. -/
theorem busNext_inFrame {p q : BusPhase} {e : Event} (h : busNext p e = some q) (hq : q.inFrame = true) :
    (e.isTx = true ∧ p.inFrame = true) ∨ (e.isTx = false ∧ q = .selected) := by
  cases e with
  | tx b => cases p <;> cases h <;> exact .inl ⟨rfl, rfl⟩
  | cs b =>
    cases p <;> simp only [busNext, Option.ite_none_right_eq_some, Option.some.injEq, reduceCtorEq] at h
    · exact .inr ⟨rfl, h.2.symm⟩
    · simp [← h.2, BusPhase.inFrame] at hq
  | fault c => cases c <;> cases p <;> cases h <;> cases hq
  | _ =>
    cases p <;> cases h
    cases hq

/-- Without its bytes, a trace that ends inside a frame ends after `CS(0)`. -/
theorem tracePhase_rdropWhile_isTx {es : List Event} {q : BusPhase} (h : tracePhase es = some q) (hq : q.inFrame = true) :
    tracePhase (es.rdropWhile Event.isTx) = some .selected := by
  induction es using List.reverseRecOn generalizing q with
  | nil => cases h; cases hq
  | append_singleton es e ih =>
    obtain ⟨p, hp⟩ : ∃ p, tracePhase es = some p := by
      cases hp : tracePhase es with
      | none => rw [tracePhase, List.foldlM_append, ← tracePhase, hp] at h; cases h
      | some p => exact ⟨p, rfl⟩
    have hlast : busNext p e = some q := by
      rw [tracePhase_append hp] at h
      simpa using h
    rcases busNext_inFrame hlast hq with ⟨htx, hpin⟩ | ⟨htx, rfl⟩
    · rw [List.rdropWhile_concat_pos _ _ _ htx]
      exact ih hp hpin
    · rw [List.rdropWhile_concat_neg _ _ _ (by simp [htx])]
      exact h

theorem CycleTraceInv.busFault {s : State} (h : CycleTraceInv s) (hf : s.fault = 0) (hp : s.pos.isFrame = true)
    (hn : s.ph < csEnd s.cfg) : CycleTraceInv (raiseBus s.ph (withdrawBytes s)) :=
  tracePhase_append (tracePhase_rdropWhile_isTx h (busPhase_inFrame hf hp hn)) [.fault .bus]

/-- `SAMPLE` is no frame position. -/
theorem CycleTraceInv.sensorFault {s : State} (h : CycleTraceInv s) (hf : s.fault = 0) (hp : s.pos = .sample) :
    CycleTraceInv (raise .sensor s) := by
  have hbetween : busPhase s = .between := busPhase_noFrame hf (by rw [hp]; rfl)
  exact tracePhase_append (h.trans (congrArg some hbetween)) [.fault .sensor]

/-! Going over to the next position. -/

/-- The event of a position's last edge comes between frames. -/
theorem lastEdgeEffect_trace (p : Pins) {s : State} (h : tracePhase s.trace = some .between) :
    tracePhase (lastEdgeEffect p s).trace = some .between := by
  cases hp : s.pos <;> simp only [lastEdgeEffect, hp]
  case bStart | bInit | bClear | aShow | aDwell | aClear | tEnd | sleep => exact h
  all_goals exact tracePhase_append h [_]

theorem foldlM_entryEvents (q : Pos) :
    (entryEvents q).foldlM busNext .between = some (if q.isFrame = true then .selected else .between) := by
  cases q <;> rfl

/-- A position begins with chip-select as its entry event leaves it. -/
theorem cycleTraceInv_arrive (q : Pos) {s : State} (hc : s.cfg.wf = true) (hf : s.fault = 0) (h : tracePhase s.trace = some .between) :
    CycleTraceInv (arrive q s) := by
  have htrace := (tracePhase_append h (entryEvents q)).trans (foldlM_entryEvents q)
  have hphase : busPhase (arrive q s) = if q.isFrame = true then .selected else .between := by
    cases hq : q.isFrame with
    | false => exact busPhase_noFrame hf hq
    | true => exact (busPhase_frame (s := arrive q s) hf hq).trans (framePhase_selected (byteEnd_order hc).1)
  exact htrace.trans (congrArg some hphase.symm)

/-- Settles O58: the six things a clock edge can do; the trace of a position's last cycle ends between frames. -/
theorem clockEdgeKeepsChipSelectDiscipline : Obligations.ClockEdgeKeepsChipSelectDiscipline := by
  intro s t p _ h ht
  obtain ⟨hc, rfl⟩ := cstep_cases ht
  rcases clockEdge_cases p s with
    ⟨-, he⟩ | ⟨-, -, he⟩ | ⟨hf, hp, hn, he⟩ | ⟨hf, hp, -, he⟩ | ⟨hf, -, he⟩ | ⟨hf, hn, -, he⟩ <;> rw [he]
  · exact cycleTraceInv_afterReset _ _ _ _
  · exact h
  · exact h.busFault hf hp hn
  · exact h.sensorFault hf hp
  · exact h.countOn hc hf
  · have hd := rowEffect_lastEdgeEffect p s
    have hbetween : tracePhase s.trace = some .between := h.trans (congrArg some (busPhase_lastCycle hc hf hn))
    exact cycleTraceInv_arrive _ (hd.cfg ▸ hc) (hd.fault.trans hf) (lastEdgeEffect_trace p hbetween)

end Sys2Proof.Machine
end

/-! ### The segments of the waveform -/

section
namespace Sys2Proof.Machine

theorem busHalted_iff (s : State) : busHalted s = true ↔ s.fault = 1 ∧ s.fcode = 1 := decide_eq_true_iff

/-- Settles O7: the four segments of `wave`, with bit `i` in the `(15 - i)`-th bit period, and the two answers of `wires`. -/
theorem waveformSegments : Obligations.WaveformSegments := by
  refine ⟨fun c w ph => wave_lead w, fun c w i j hi hj => ?bit, fun c w ph hlo hhi => ?trail, fun c w ph hlo => ?gap,
    fun s hp => wires_driven s (.inl hp), fun s hp hb => ?idle, fun s hf hcode => wires_driven s (.inr ((busHalted_iff s).2 ⟨hf, hcode⟩))⟩
  case bit =>
    have hbit := wave_bit (c := c) w (i := 15 - i) (by omega) hj
    rwa [Nat.mul_comm, ← Nat.add_assoc, Nat.sub_sub_self (by omega)] at hbit
  case trail =>
    obtain ⟨n, rfl⟩ := Nat.exists_eq_add_of_le hlo
    exact wave_trail w (by omega)
  case gap =>
    obtain ⟨n, rfl⟩ := Nat.exists_eq_add_of_le hlo
    exact wave_gap c w n
  case idle => exact wires_idle s hp (Bool.eq_false_iff.2 (mt (busHalted_iff s).1 hb))

end Sys2Proof.Machine
end

/-! ### The frame commands -/

section
namespace Sys2Proof.Machine

/-- A command that sends its frame on a good draw ends in the sent frame. -/
theorem complete_sendFrame_ok {r v : Byte} {f : State → State} {latch : Memory → Memory} {s : State} (hr : Running s)
    (hok : failsAt s.cfg s.env.drawBus.1 = none) (hf : f s = sendFrame r v latch s) :
    complete f s = .next (sentFrame r v (latch s.drv) s) := by
  rw [complete_running f s hr, hf, sendFrame_ok r v latch s hok]

/-- A command that writes its own entry of DRV. -/
theorem complete_sets {r v : Byte} {f : State → State} {s : State} (hr : Running s) (hok : failsAt s.cfg s.env.drawBus.1 = none)
    (hf : f s = sendFrame r v (Memory.write · r v) s) :
    ∃ m, complete f s = .next (sentFrame r v m s) ∧ DrvSets r v s.drv m :=
  ⟨_, complete_sendFrame_ok hr hok hf, drvSets_write s.drv r v⟩

/-- Settles O12: `WREG` is `writeRegister`, whose latch is the chip's. -/
theorem writeRegisterSendsAnyPair : Obligations.WriteRegisterSendsAnyPair := fun _ _ _ hr hok =>
  complete_sendFrame_ok hr hok rfl

/-- Settles O10: the eight commands write at their own addresses. -/
theorem rowCommandsSetTheirRow : Obligations.RowCommandsSetTheirRow := fun _ _ hr hok =>
  ⟨complete_sets hr hok rfl, complete_sets hr hok rfl, complete_sets hr hok rfl, complete_sets hr hok rfl, complete_sets hr hok rfl,
    complete_sets hr hok rfl, complete_sets hr hok rfl, complete_sets hr hok rfl⟩

/-- Settles O11: the five commands write at the addresses CFG gives them. -/
theorem configCommandsSetTheirRegister : Obligations.ConfigCommandsSetTheirRegister := fun _ _ hr hok =>
  ⟨complete_sets hr hok rfl, complete_sets hr hok rfl, complete_sets hr hok rfl, complete_sets hr hok rfl, complete_sets hr hok rfl⟩

theorem rowCommand_ne_noop (r : Fin 8) (v v' : Byte) : rowCommand r v ≠ .noop v' := by
  fin_cases r <;> simp [rowCommand]

theorem initCommand_ne_noop (k : Fin 6) (v v' : Byte) : initCommand k v ≠ .noop v' := by
  fin_cases k <;> simp [initCommand]

/-- Settles O9: the latch of `NOOP` is the identity; a position's frame is a row command or a configuration write. -/
theorem noopChangesNothingInTheChip : Obligations.NoopChangesNothingInTheChip := by
  refine ⟨fun s v hr hok => complete_sendFrame_ok (latch := id) hr hok rfl, fun c p w v hc hw => ?_⟩
  rcases word_cases hw with ⟨r, x, rfl⟩ | ⟨k, rfl⟩
  · rw [decodeFrame_row hc]
    exact rowCommand_ne_noop r x v
  · rw [decodeFrame_init hc]
    exact initCommand_ne_noop k _ v

/-- Settles O13: both sides are `complete` of `writeRegister`. -/
theorem commandIsWriteRegister : Obligations.CommandIsWriteRegister := fun s w => exec_decodeFrame w s

end Sys2Proof.Machine
end

/-! ### A failing frame -/

section
namespace Sys2Proof.Machine

/-- The image of an operation is one frame exactly for the operations that send one: the others have none, 8, 14 or `8 * (N_STEPS + 1)` frames. -/
theorem exec_of_encode_frame {s : State} {i : Instr} {w : FrameWord} (h : encode s.cfg i = some (.frames [w])) :
    ∃ r v latch, w = frameWord r v ∧ exec i s = complete (sendFrame r v latch) s := by
  cases i
  case clear | initialise | boot => cases h
  case showPattern o =>
    obtain ⟨p, -, hp⟩ := Option.map_eq_some_iff.1 h
    cases hp
  case alert =>
    have hw : s.cfg.alertWords = [w] := Image.frames.inj (Option.some.inj h)
    have hlen := alertWords_length s.cfg
    rw [hw, List.length_singleton] at hlen
    omega
  case status | indSet | indClr | sample | dwell | tend | sleep | tick | iter => cases h
  all_goals
    cases h
    exact ⟨_, _, _, rfl, complete_congr rfl⟩

/-- Chip-select is low in the window of a frame, and while a failure in the window holds the wires. -/
theorem outputs_csN_driven {s : State} (h : s.pos.isFrame = true ∨ busHalted s = true) (hn : s.ph < csEnd s.cfg) :
    (outputs s).csN = 0 := by
  have hlow := wave_csN s.cfg s.w s.ph
  rw [if_pos hn, ← wires_driven s h] at hlow
  exact hlow

/-- Settles O14: BusFault in cycle `p` of the opened frame, with the wires of that cycle (40_framer.md R81). -/
theorem busFailureHaltsTheFrame : Obligations.BusFailureHaltsTheFrame := by
  intro s i w p hr hi hfail
  obtain ⟨r, v, latch, rfl, hx⟩ := exec_of_encode_frame hi
  rw [complete_running _ s hr, sendFrame_fail r v latch s p hfail] at hx
  refine ⟨_, hx, ?_, ?_⟩
  · exact outputs_csN_driven (.inr rfl) (failsAt_lt hfail)
  · simp [raiseBus, raise, openFrame, emit, Cause.code]

end Sys2Proof.Machine
end

/-! ### What the matrix shows -/

section
namespace Sys2Proof.Machine

/-- The frames `ws` whole, one after the other, each latched by the chip. -/
def sentFrames (ws : List FrameWord) (s : State) : State :=
  ws.foldl (fun t w => sentFrame (frameReg w) (frameVal w) (chipLatch t.cfg (frameReg w) (frameVal w) t.drv) t) s

/-- On good draws, writes one after the other are sent frames. -/
theorem foldl_writeRegister_ok (ws : List FrameWord) {s : State} (hr : Running s) (hok : BusOk s.cfg ws.length s.env) :
    ws.foldl (fun t w => whenRunning (writeRegister (frameReg w) (frameVal w)) t) s = sentFrames ws s := by
  induction ws generalizing s with
  | nil => rfl
  | cons w ws ih =>
    obtain ⟨hdraw, hrest⟩ := hok
    have hone : whenRunning (writeRegister (frameReg w) (frameVal w)) s =
        sentFrame (frameReg w) (frameVal w) (chipLatch s.cfg (frameReg w) (frameVal w) s.drv) s := by
      rw [whenRunning_running _ s hr.2, writeRegister, sendFrame_ok _ _ _ s hdraw]
    rw [List.foldl_cons, hone]
    exact ih hr hrest

theorem sentFrames_drv (ws : List FrameWord) (s : State) :
    (sentFrames ws s).drv = ws.foldl (fun m w => chipLatch s.cfg (frameReg w) (frameVal w) m) s.drv := by
  induction ws generalizing s with
  | nil => rfl
  | cons w ws ih => exact ih _

theorem regRow_mem_addresses (c : Cfg) (r : Fin 8) : regRow r ∈ c.addresses := by
  fin_cases r <;> simp [Cfg.addresses, regRow]

theorem regRow_injective : Function.Injective regRow := by decide

theorem chipLatch_row {c : Cfg} (hc : c.wf = true) (r : Fin 8) (v : Byte) :
    chipLatch c (regRow r) v = (Memory.write · (regRow r) v) :=
  chipLatch_enumerated v ((Cfg.wf_distinct hc).1 r).1 (regRow_mem_addresses c r)

/-- DRV after the rows `l` have been written with the bytes `f`. -/
def writeRows (f : Fin 8 → Byte) (l : List (Fin 8)) (m : Memory) : Memory :=
  l.foldl (fun m r => Memory.write m (regRow r) (f r)) m

theorem read_writeRows_other (f : Fin 8 → Byte) {l : List (Fin 8)} {b : Byte} (hb : ∀ r ∈ l, b ≠ regRow r) (m : Memory) :
    Memory.read (writeRows f l m) b = Memory.read m b := by
  induction l generalizing m with
  | nil => rfl
  | cons a l ih =>
    obtain ⟨ha, hl⟩ := List.forall_mem_cons.1 hb
    exact (ih hl _).trans (read_write_other m (regRow a) b (f a) ha)

theorem read_writeRows_row (f : Fin 8 → Byte) {l : List (Fin 8)} {r : Fin 8} (hr : r ∈ l) (m : Memory) :
    Memory.read (writeRows f l m) (regRow r) = some (f r) := by
  induction l generalizing m with
  | nil => cases hr
  | cons a l ih =>
    by_cases hmem : r ∈ l
    · exact ih hmem _
    · obtain rfl : r = a := (List.mem_cons.1 hr).resolve_right hmem
      have hlast : ∀ r' ∈ l, regRow r ≠ regRow r' := fun r' hr' heq => hmem (regRow_injective heq ▸ hr')
      exact (read_writeRows_other f hlast _).trans (read_write_same m (regRow r) (f r))

theorem wf_writeRows (f : Fin 8 → Byte) (l : List (Fin 8)) {m : Memory} (h : Memory.wf m = true) :
    Memory.wf (writeRows f l m) = true := by
  induction l generalizing m with
  | nil => exact h
  | cons a l ih => exact ih (wf_write m (regRow a) (f a) h)

theorem mem_rows (r : Fin 8) : r ∈ rows := by
  revert r; decide

theorem drvShows_writeRows (p : Pattern) (m : Memory) : DrvShows p m (writeRows p.row rows m) :=
  ⟨fun r => read_writeRows_row p.row (mem_rows r) m, fun _ hb => read_writeRows_other p.row (fun r _ => hb r) m, wf_writeRows p.row rows⟩

theorem showOp_eq_foldl (p : Pattern) (s : State) :
    showOp p s = (showWords p).foldl (fun t w => whenRunning (writeRegister (frameReg w) (frameVal w)) t) s := by
  simp only [showOp, forRows, showWords, List.foldl_map, frameReg_frameWord, frameVal_frameWord]

/-- On good draws `showPattern` leaves the rows holding the pattern. -/
theorem drvShows_showOp {s : State} (p : Pattern) (hr : Running s) (hok : BusOk s.cfg 8 s.env) :
    DrvShows p s.drv (showOp p s).drv := by
  have hdrv : (showOp p s).drv = writeRows p.row rows s.drv := by
    rw [showOp_eq_foldl, foldl_writeRegister_ok (showWords p) hr hok, sentFrames_drv]
    simp only [showWords, List.foldl_map, frameReg_frameWord, frameVal_frameWord, chipLatch_row hr.1, writeRows]
  rw [hdrv]
  exact drvShows_writeRows p s.drv

theorem execShow_pattern {o : ShowOperand} {s : State} {p : Pattern} (h : s.cfg.shownPattern o = some p) :
    execShow o s = complete (showOp p) s := by
  rw [execShow, h]

/-- Settles O20: `showPattern` writes the rows alone, and no configuration register has a row's address. -/
theorem shownAfterShowPattern : Obligations.ShownAfterShowPattern := by
  intro s t o p hr hp hok hdecode hscan hshutdown htest hx r
  have hx' : complete (showOp p) s = .next t := (execShow_pattern hp).symm.trans hx
  have hcfg : t.cfg = s.cfg := congrArg Kept.cfg (complete_keeps hx' (showOp_kept p))
  obtain ⟨hrow, hother, -⟩ : DrvShows p s.drv t.drv := complete_running_cases hr hx' ▸ drvShows_showOp p hr hok
  obtain ⟨hrows, -⟩ := Cfg.wf_distinct hr.1
  rw [shownRow, hcfg, hother _ fun r => (hrows r).2.1.symm, hother _ fun r => (hrows r).2.2.2.1.symm,
    hother _ fun r => (hrows r).2.2.2.2.1.symm, hother _ fun r => (hrows r).2.2.2.2.2.symm,
    if_pos ⟨hdecode, hscan, hshutdown, htest⟩, hrow]

end Sys2Proof.Machine
end

/-! ### Inputs outside their window -/

section
namespace Sys2Proof.Machine

/-- Of the pins, the effect of a position's last edge takes the sample. -/
theorem lastEdgeEffect_congr {p q : Pins} {s : State} (h : s.pos = .sample → p.sensorIn = q.sensorIn) :
    lastEdgeEffect p s = lastEdgeEffect q s := by
  cases hp : s.pos with
  | sample => simp only [lastEdgeEffect, hp, h hp]
  | _ => simp only [lastEdgeEffect, hp]

theorem successor_congr {p q : Pins} {s : State} (h : s.pos = .sample → p.sensorIn = q.sensorIn) :
    successor s.cfg (edge p.sensorIn s.prev) s.pos = successor s.cfg (edge q.sensorIn s.prev) s.pos := by
  by_cases hp : s.pos = .sample
  · rw [h hp]
  · rw [successor_edge _ _ hp, successor_edge _ (edge q.sensorIn s.prev) hp]

/-- Settles O53: `bus_err` is looked at in the window of a frame alone, the sensor pins at `SAMPLE` alone. -/
theorem inputsIgnoredOutsideTheirWindow : Obligations.InputsIgnoredOutsideTheirWindow := by
  intro p q s hrst hbus hsensor
  have hin : s.pos = .sample → p.sensorIn = q.sensorIn := fun hp => (hsensor hp).1
  have hcut : (s.pos.isFrame = true ∧ s.ph < csEnd s.cfg ∧ p.busErr = 1) ↔ (s.pos.isFrame = true ∧ s.ph < csEnd s.cfg ∧ q.busErr = 1) :=
    and_congr_right fun hp => and_congr_right fun hn => by rw [hbus (outputs_csN_driven (.inl hp) hn)]
  have hread : (s.pos = .sample ∧ p.sensorErr = 1) ↔ (s.pos = .sample ∧ q.sensorErr = 1) :=
    and_congr_right fun hp => by rw [(hsensor hp).2]
  simp only [cstep, clockEdge, hrst, hcut, hread, lastEdgeEffect_congr hin, successor_congr hin]

end Sys2Proof.Machine
end

/-! ### A frame's events at their edges -/

section
namespace Sys2Proof.Machine

/-- The events of a frame's edges up to that where PH becomes `n`, after its `CS(0)` (40_framer.md R101). -/
def frameEventsUpTo (c : Cfg) (w : FrameWord) (n : Nat) : List Event :=
  (if n < byteEnd c 1 then [] else [.tx (frameReg w)]) ++ (if n < byteEnd c 2 then [] else [.tx (frameVal w)]) ++
    (if n < csEnd c then [] else [.cs 1])

theorem frameEventsUpTo_zero {c : Cfg} (hc : c.wf = true) (w : FrameWord) : frameEventsUpTo c w 0 = [] := by
  obtain ⟨h1, h12, h2e⟩ := byteEnd_order hc
  rw [frameEventsUpTo, if_pos h1, if_pos (by omega), if_pos (by omega)]
  rfl

/-- Of the three parts, the edge to `n + 1` fills at most one, with the later ones still empty. -/
theorem frameEventsUpTo_succ {c : Cfg} (hc : c.wf = true) (w : FrameWord) (n : Nat) :
    frameEventsUpTo c w (n + 1) = frameEventsUpTo c w n ++ frameEdgeEvents c w (n + 1) := by
  obtain ⟨-, h12, h2e⟩ := byteEnd_order hc
  unfold frameEdgeEvents
  split_ifs with h1 h2 he
  case neg =>
    have hstay {m : Nat} (hm : n + 1 ≠ m) : n + 1 < m ↔ n < m := by omega
    simp only [frameEventsUpTo, hstay h1, hstay h2, hstay he, List.append_nil]
  all_goals simp (disch := omega) only [frameEventsUpTo, if_pos, if_neg, List.nil_append, List.append_nil]

/-- The frame position of `s` in its cycle `n`, not cut. -/
def inFrameCycle (s : State) (n : Nat) : State :=
  { s with
    ph := n, drv := if n < csEnd s.cfg then s.drv else latchWord s
    trace := s.trace ++ frameEventsUpTo s.cfg s.w n }

theorem inFrameCycle_zero {s : State} (hc : s.cfg.wf = true) (h : s.ph = 0) : inFrameCycle s 0 = s := by
  obtain ⟨h1, h12, h2e⟩ := byteEnd_order hc
  have hwindow : 0 < csEnd s.cfg := by omega
  rw [inFrameCycle, frameEventsUpTo_zero hc, if_pos hwindow, List.append_nil, ← h]

theorem countOn_inFrameCycle {s : State} (hc : s.cfg.wf = true) (hp : s.pos.isFrame = true) (n : Nat) :
    countOn (inFrameCycle s n) = inFrameCycle s (n + 1) := by
  have hdrv : (if n + 1 = csEnd s.cfg then latchWord (inFrameCycle s n) else (inFrameCycle s n).drv) = (inFrameCycle s (n + 1)).drv := by
    by_cases he : n + 1 = csEnd s.cfg
    · simp (disch := omega) only [inFrameCycle, latchWord, if_pos, if_neg]
    · have hstay : n + 1 < csEnd s.cfg ↔ n < csEnd s.cfg := by omega
      simp only [inFrameCycle, if_neg he, hstay]
  have htrace : (inFrameCycle s n).trace ++ frameEdgeEvents s.cfg s.w (n + 1) = (inFrameCycle s (n + 1)).trace := by
    simp only [inFrameCycle, frameEventsUpTo_succ hc, List.append_assoc]
  calc countOn (inFrameCycle s n)
      = { s with
          ph := n + 1, drv := if n + 1 = csEnd s.cfg then latchWord (inFrameCycle s n) else (inFrameCycle s n).drv
          trace := (inFrameCycle s n).trace ++ frameEdgeEvents s.cfg s.w (n + 1) } := countOn_frame hc hp
    _ = inFrameCycle s (n + 1) := by rw [hdrv, htrace]; rfl

/-- A run inside a frame position that is not cut, from its cycle `m`. -/
theorem crun_inFrameCycle {s : State} (hs : Running s) (hp : s.pos.isFrame = true) (ps : List Pins) {m : Nat}
    (hq : QuietFrom s.cfg m ps) (hn : m + ps.length < lenFrame s.cfg) :
    crun ps (inFrameCycle s m) = .next (inFrameCycle s (m + ps.length)) := by
  induction ps generalizing m with
  | nil => rfl
  | cons p ps ih =>
    rw [List.length_cons] at hn ⊢
    have hlast : m + 1 < lenFrame s.cfg := by omega
    have hcount : clockEdge p (inFrameCycle s m) = inFrameCycle s (m + 1) :=
      (clockEdge_frame (s := inFrameCycle s m) hs.2 hp hq.head.1 hq.head.2 hlast).trans (countOn_inFrameCycle hs.1 hp m)
    rw [crun, cstep_next p (inFrameCycle s m) hs.1, hcount, show m + (ps.length + 1) = m + 1 + ps.length by omega]
    exact ih hq.tail (by omega)

/-- Settles O59: `inFrameCycle` after as many edges as there are pins. -/
theorem frameEventsAtTheirEdges : Obligations.FrameEventsAtTheirEdges := by
  intro s ps hs hp hph hr hfail hn
  have hrun := crun_inFrameCycle hs hp ps (quietFrom_zero hr hfail) (by omega)
  rw [inFrameCycle_zero hs.1 hph, Nat.zero_add] at hrun
  rw [hrun]
  simp only [inFrameCycle, frameEventsUpTo, List.append_assoc]
  rfl

end Sys2Proof.Machine
end

/-! ### A cut frame on the wires -/

section
namespace Sys2Proof.Machine

/-- Pins that do not reset the block and whose `bus_err` is first 1 in cycle `k` of the position, the first of them standing for cycle `m`. -/
def FirstErrAt (k m : Nat) (ps : List Pins) : Prop :=
  ∀ n p, ps[n]? = some p → p.rst = 0 ∧ (m + n < k → p.busErr ≠ 1) ∧ (m + n = k → p.busErr = 1)

theorem FirstErrAt.head {k m : Nat} {p : Pins} {ps : List Pins} (h : FirstErrAt k m (p :: ps)) :
    p.rst = 0 ∧ (m < k → p.busErr ≠ 1) ∧ (m = k → p.busErr = 1) := h 0 p rfl

theorem FirstErrAt.tail {k m : Nat} {p : Pins} {ps : List Pins} (h : FirstErrAt k m (p :: ps)) : FirstErrAt k (m + 1) ps :=
  fun n q hq => by
    rw [Nat.add_assoc, Nat.add_comm 1 n]
    exact h (n + 1) q hq

theorem FirstErrAt.rst {k m : Nat} {ps : List Pins} (h : FirstErrAt k m ps) : ∀ p ∈ ps, p.rst = 0 := fun p hp => by
  obtain ⟨n, hn⟩ := List.mem_iff_getElem?.1 hp
  exact (h n p hn).1

theorem firstErrAt_of_failsAt {c : Cfg} {ps : List Pins} {k : Nat} (hr : ∀ p ∈ ps, p.rst = 0)
    (h : failsAt c (busDrawOf ps) = some k) : FirstErrAt k 0 ps := by
  unfold busDrawOf at h
  split at h
  next j hj =>
    obtain rfl : j = k := by
      simp only [failsAt, Option.ite_none_right_eq_some, Option.some.injEq] at h
      exact h.2
    obtain ⟨_, herr, hbefore⟩ := List.findIdx?_eq_some_iff_getElem.1 hj
    intro n p hp
    obtain ⟨hlen, rfl⟩ := List.getElem?_eq_some_iff.1 hp
    refine ⟨hr _ (List.getElem_mem hlen), fun hlt => ?_, fun heq => ?_⟩
    · simpa using hbefore n (by omega)
    · obtain rfl : n = j := by omega
      simpa using herr
  next => simp [failsAt] at h

theorem clockEdge_halted {s : State} {p : Pins} (hf : s.fault = 1) (hr : p.rst = 0) : clockEdge p s = s := by
  rw [clockEdge, if_neg (by simp [hr]), if_pos hf]

theorem coutputs_cons {s t : State} {p : Pins} (h : cstep p s = .next t) (ps : List Pins) :
    coutputs (p :: ps) s = outputs s :: coutputs ps t := by
  rw [coutputs, h]

/-- A halted block holds its outputs (60_exceptions.md R174). -/
theorem coutputs_halted {s : State} (hc : s.cfg.wf = true) (hf : s.fault = 1) (ps : List Pins) (hr : ∀ p ∈ ps, p.rst = 0) :
    coutputs ps s = List.replicate (ps.length + 1) (outputs s) := by
  induction ps with
  | nil => rfl
  | cons p ps ih =>
    obtain ⟨hp, hps⟩ := List.forall_mem_cons.1 hr
    have hstay : cstep p s = .next s := by rw [cstep_next p s hc, clockEdge_halted hf hp]
    rw [coutputs_cons hstay, ih hps, List.length_cons, ← List.replicate_succ]

theorem clockEdge_cut {s : State} {p : Pins} (hf : s.fault = 0) (hp : s.pos.isFrame = true) (hn : s.ph < csEnd s.cfg) (hr : p.rst = 0)
    (he : p.busErr = 1) : clockEdge p s = raiseBus s.ph (withdrawBytes s) := by
  rw [clockEdge, if_neg (by simp [hr]), if_neg ((fault_ne_one s).2 hf), if_pos ⟨hp, hn, he⟩]

/-- The wires of a run through a frame position that is cut in its cycle `k`: the waveform up to that cycle, and then the wires of that cycle. -/
theorem coutputs_cutFrame (ps : List Pins) {s : State} {k : Nat} (hs : Running s) (hp : s.pos.isFrame = true) (hk : k < csEnd s.cfg)
    (hm : s.ph ≤ k) (hq : FirstErrAt k s.ph ps) :
    (coutputs ps s).map Outputs.bus = (List.range' s.ph (ps.length + 1)).map fun n => wave s.cfg s.w (min n k) := by
  have hbus : (outputs s).bus = wave s.cfg s.w (min s.ph k) := by
    rw [Nat.min_eq_left hm]
    exact wires_driven s (.inl hp)
  induction ps generalizing s with
  | nil => simp [coutputs, hbus]
  | cons p ps ih =>
    obtain ⟨hcfg, hf⟩ := hs
    obtain ⟨hr, hquiet, herr⟩ := hq.head
    rw [coutputs_cons (cstep_next p s hcfg), List.map_cons, hbus, List.length_cons, List.range'_succ, List.map_cons]
    congr 1
    rcases Nat.lt_or_eq_of_le hm with hlt | rfl
    · have hwindow : csEnd s.cfg < lenFrame s.cfg := csEnd_lt_lenFrame hcfg
      obtain ⟨d, es, heq, -⟩ := countOn_eq s
      rw [clockEdge_frame hf hp hr (fun _ => hquiet hlt) (by omega), heq]
      refine ih ⟨hcfg, hf⟩ hp hk hlt hq.tail ?_
      rw [Nat.min_eq_left hlt]
      exact wires_driven _ (.inl hp)
    · have hheld : (outputs (raiseBus s.ph (withdrawBytes s))).bus = wave s.cfg s.w s.ph := wires_driven _ (.inl hp)
      rw [clockEdge_cut hf hp hk hr (herr rfl), coutputs_halted (s := raiseBus s.ph (withdrawBytes s)) hcfg rfl ps hq.tail.rst,
        List.map_replicate, hheld]
      refine (List.eq_replicate_iff.2 ⟨by simp, fun x hx => ?_⟩).symm
      obtain ⟨n, hn, rfl⟩ := List.mem_map.1 hx
      rw [Nat.min_eq_right (by rw [List.mem_range'_1] at hn; omega)]

/-- Wires that keep chip-select low are one unfinished frame. -/
theorem wireFrames_unfinished {xs : List Wires} (hlow : ∀ x ∈ xs, x.csN = 0) {d : WireState} (hd : d.last.csN = 0 ∨ xs ≠ []) :
    ∃ bits, wireFrames d xs = [.unfinished bits] := by
  induction xs generalizing d with
  | nil => exact ⟨d.bits, if_pos (hd.resolve_right (absurd rfl))⟩
  | cons x xs ih =>
    obtain ⟨hx, hxs⟩ := List.forall_mem_cons.1 hlow
    have hsel : ¬ x.csN = 1 := by simp [hx]
    rw [wireFrames, if_neg hsel]
    exact ih hxs (.inl hx)

/-- Settles O55: `coutputs_cutFrame`, whose wires all lie in the chip-select window. -/
theorem cutFrameHoldsTheWires : Obligations.CutFrameHoldsTheWires := by
  intro s ps k hs hp hph hr hfail
  have hk : k < csEnd s.cfg := failsAt_lt hfail
  have hwires := coutputs_cutFrame ps hs hp hk (by omega) (hph ▸ firstErrAt_of_failsAt hr hfail)
  rw [hph, ← List.range_eq_range'] at hwires
  refine ⟨hwires, ?_⟩
  have hlow : ∀ x ∈ (coutputs ps s).map Outputs.bus, x.csN = 0 := by
    rw [hwires]
    intro x hx
    obtain ⟨n, -, rfl⟩ := List.mem_map.1 hx
    rw [wave_csN, if_pos (by omega)]
  have hne : (coutputs ps s).map Outputs.bus ≠ [] := by rw [hwires]; simp
  obtain ⟨bits, hframes⟩ := wireFrames_unfinished hlow (d := .start) (.inr hne)
  rw [wireEvents, hframes]
  rfl

end Sys2Proof.Machine
end

/-! ### Frames one after the other -/

section
namespace Sys2Proof.Machine

theorem afterBus_succ (n : Nat) (e : Env) : Env.afterBus (n + 1) e = (Env.afterBus n e).drawBus.2 := by
  induction n generalizing e with
  | zero => rfl
  | succ n ih => exact ih _

theorem busOk_add {c : Cfg} {m n : Nat} {e : Env} : BusOk c (m + n) e ↔ BusOk c m e ∧ BusOk c n (Env.afterBus m e) := by
  induction m generalizing e with
  | zero => simp [BusOk, Env.afterBus]
  | succ m ih => rw [Nat.add_right_comm, BusOk, ih, BusOk, and_assoc, Env.afterBus]

/-- DRV after the chip has latched the frames `ws`. -/
def latchWords (c : Cfg) (ws : List FrameWord) (m : Memory) : Memory :=
  ws.foldl (fun m w => chipLatch c (frameReg w) (frameVal w) m) m

/-- Whole frames leave their words' events, their draws taken and the last word in `W`; PH is 0 unless there was none. -/
theorem sentFrames_eq (ws : List FrameWord) (s : State) :
    sentFrames ws s =
      { s with
        w := ws.getLastD s.w, ph := if ws.isEmpty then s.ph else 0, env := Env.afterBus ws.length s.env,
        drv := latchWords s.cfg ws s.drv, trace := s.trace ++ frameEvents ws } := by
  induction ws generalizing s with
  | nil => simp [sentFrames, frameEvents, Env.afterBus, latchWords]
  | cons w ws ih =>
    refine (ih _).trans ?_
    rw [List.getLastD_cons]
    simp [sentFrame, frameEvents, Env.afterBus, latchWords, frameWord_fields]

@[simp] theorem sentFrames_cfg (ws : List FrameWord) (s : State) : (sentFrames ws s).cfg = s.cfg := by rw [sentFrames_eq]

@[simp] theorem sentFrames_fault (ws : List FrameWord) (s : State) : (sentFrames ws s).fault = s.fault := by rw [sentFrames_eq]

@[simp] theorem sentFrames_env (ws : List FrameWord) (s : State) : (sentFrames ws s).env = Env.afterBus ws.length s.env := by
  rw [sentFrames_eq]

/-- A frame that fails after the whole frames `ws` (41_matrix_ops.md R120). -/
theorem raiseBus_sentFrames (ws : List FrameWord) (w : FrameWord) (p : Nat) (s : State) :
    raiseBus p (openFrame (frameReg w) (frameVal w) (sentFrames ws s)) = cutAfter ws w p s := by
  rw [sentFrames_eq]
  simp [raiseBus, raise, openFrame, emit, cutAfter, Cause.code, frameWord_fields, afterBus_succ]

/-- What comes after the operation that halts the block does nothing. -/
theorem foldl_halts {α : Type} {f : α → State → State} (hf : ∀ a t, t.fault = 1 → f a t = t) {l : List α} {a : α} {s t : State}
    (h : f a (l.foldl (fun t a => f a t) s) = t) (ht : t.fault = 1) (l' : List α) :
    (l ++ a :: l').foldl (fun t a => f a t) s = t := by
  rw [List.foldl_append, List.foldl_cons, h]
  exact foldl_keeps (P := (· = t)) (fun b u hu => hu ▸ hf b u (hu ▸ ht)) l' t rfl

/-- Writes one after the other stop at the one that fails. -/
theorem foldl_writeRegister_fails {ws : List FrameWord} (w : FrameWord) (rest : List FrameWord) {s : State} {p : Nat} (hr : Running s)
    (hok : BusOk s.cfg ws.length s.env) (hfail : failsAt s.cfg (Env.afterBus ws.length s.env).drawBus.1 = some p) :
    (ws ++ w :: rest).foldl (fun t w => whenRunning (writeRegister (frameReg w) (frameVal w)) t) s = cutAfter ws w p s := by
  refine foldl_halts (f := fun w => whenRunning (writeRegister (frameReg w) (frameVal w))) (fun _ t => whenRunning_halted _ t) ?_ rfl rest
  rw [foldl_writeRegister_ok ws hr hok, whenRunning_running _ _ (by simpa using hr.2), writeRegister,
    sendFrame_fail _ _ _ _ p (by simpa using hfail), raiseBus_sentFrames]

end Sys2Proof.Machine
end

/-! ### Frames at positions of the sequencer -/

section
namespace Sys2Proof.Machine

/-- The word of a frame position (43_loop.md R154), 0 at another. -/
def posWord (c : Cfg) (p : Pos) : FrameWord := (word c p).getD 0

theorem word_eq_posWord (c : Cfg) {p : Pos} (hp : p.isFrame = true) : word c p = some (posWord c p) := by
  cases p with
  | bInit | bClear | aShow | aClear => rfl
  | _ => cases hp

/-- The state at another position. -/
def atPos (p : Pos) (s : State) : State := { s with pos := p }

@[simp] theorem atPos_cfg (p : Pos) (s : State) : (atPos p s).cfg = s.cfg := rfl
@[simp] theorem atPos_fault (p : Pos) (s : State) : (atPos p s).fault = s.fault := rfl
@[simp] theorem atPos_env (p : Pos) (s : State) : (atPos p s).env = s.env := rfl
@[simp] theorem atPos_atPos (p q : Pos) (s : State) : atPos q (atPos p s) = atPos q s := rfl

/-- No frame looks at POS. -/
theorem sentFrames_atPos (ws : List FrameWord) (p : Pos) (s : State) : sentFrames ws (atPos p s) = atPos p (sentFrames ws s) := by
  simp only [sentFrames_eq, atPos]

/-- The sequencer's operation at the frame position `p`. -/
def sendAt (p : Pos) : State → State :=
  inPos p fun t => writeRegister (frameReg (posWord t.cfg p)) (frameVal (posWord t.cfg p)) t

theorem sendAt_ok (p : Pos) {s : State} (hf : s.fault = 0) (hok : failsAt s.cfg s.env.drawBus.1 = none) :
    sendAt p s = atPos p (sentFrames [posWord s.cfg p] s) := by
  rw [sendAt, inPos_running _ _ s hf]
  exact sendFrame_ok _ _ _ { s with pos := p, ph := 0 } hok

theorem sendAt_fails (q : Pos) {s : State} {p : Nat} (hf : s.fault = 0) (hfail : failsAt s.cfg s.env.drawBus.1 = some p) :
    sendAt q s = raiseBus p (openFrame (frameReg (posWord s.cfg q)) (frameVal (posWord s.cfg q)) (atPos q s)) := by
  rw [sendAt, inPos_running _ _ s hf]
  exact sendFrame_fail _ _ _ { s with pos := q, ph := 0 } p hfail

/-- On good draws, positions one after the other send their words and POS names the last. -/
theorem foldl_sendAt_ok (ps : List Pos) {s : State} (hr : Running s) (hok : BusOk s.cfg ps.length s.env) :
    ps.foldl (fun t p => sendAt p t) s = atPos (ps.getLastD s.pos) (sentFrames (ps.map (posWord s.cfg)) s) := by
  induction ps generalizing s with
  | nil => rfl
  | cons p ps ih =>
    obtain ⟨hdraw, hrest⟩ := hok
    rw [List.foldl_cons, sendAt_ok p hr.2 hdraw, ih (s := atPos p (sentFrames [posWord s.cfg p] s)) hr hrest,
      sentFrames_atPos, List.getLastD_cons]
    rfl

/-- Positions one after the other stop at the one whose frame fails. -/
theorem foldl_sendAt_fails {ps : List Pos} (q : Pos) (rest : List Pos) {s : State} {p : Nat} (hr : Running s)
    (hok : BusOk s.cfg ps.length s.env) (hfail : failsAt s.cfg (Env.afterBus ps.length s.env).drawBus.1 = some p) :
    (ps ++ q :: rest).foldl (fun t p => sendAt p t) s = atPos q (cutAfter (ps.map (posWord s.cfg)) (posWord s.cfg q) p s) := by
  refine foldl_halts (f := sendAt) (fun a t => inPos_halted a _ t) ?_ rfl rest
  rw [foldl_sendAt_ok ps hr hok, sendAt_fails q (p := p) (by simpa using hr.2) (by simpa using hfail), atPos_atPos,
    atPos_cfg, sentFrames_cfg, ← sentFrames_atPos, raiseBus_sentFrames]
  rfl

end Sys2Proof.Machine
end

/-! ### `initialize` at its positions -/

section
namespace Sys2Proof.Machine

/-- The frame positions of boot. -/
def initFrames : List Pos := initIndices.map Pos.bInit ++ rows.map Pos.bClear

theorem bootPath_eq : bootPath = initFrames ++ [.bStatus] := rfl

theorem map_posWord_initFrames (c : Cfg) : initFrames.map (posWord c) = c.initWords := rfl

theorem isFrame_of_mem_initFrames : ∀ p ∈ initFrames, p.isFrame = true := by decide

theorem initOp_eq_foldl (s : State) : initOp s = whenRunning (enter .bStatus) (initFrames.foldl (fun t p => sendAt p t) s) := by
  simp only [initOp, clearAt, configWrites, forRows, initFrames, List.foldl_append, List.foldl_map, sendAt, posWord, word,
    Option.getD_some, frameReg_frameWord, frameVal_frameWord]

/-- `initialize` and boot halt at the position of the frame that fails. -/
theorem initOp_fails {s : State} {ws rest : List FrameWord} {w : FrameWord} {p : Nat} (hr : Running s)
    (hok : BusOk s.cfg ws.length s.env) (hfail : failsAt s.cfg (Env.afterBus ws.length s.env).drawBus.1 = some p)
    (hws : s.cfg.initWords = ws ++ w :: rest) :
    ∃ q, bootPath[ws.length]? = some q ∧ word s.cfg q = some w ∧ initOp s = atPos q (cutAfter ws w p s) := by
  rw [← map_posWord_initFrames] at hws
  obtain ⟨ps, qs, hps, rfl, hqs⟩ := List.map_eq_append_iff.1 hws
  obtain ⟨q, rest', rfl, rfl, -⟩ := List.map_eq_cons_iff.1 hqs
  rw [List.length_map] at hok hfail ⊢
  refine ⟨q, ?_, word_eq_posWord _ (isFrame_of_mem_initFrames q (by simp [hps])), ?_⟩
  · simp [bootPath_eq, hps]
  · rw [initOp_eq_foldl, hps, foldl_sendAt_fails q rest' hr hok hfail]
    exact whenRunning_halted _ _ rfl

end Sys2Proof.Machine
end

/-! ### DRV after `initialize` -/

section
namespace Sys2Proof.Machine

theorem latchWords_append (c : Cfg) (ws us : List FrameWord) (m : Memory) :
    latchWords c (ws ++ us) m = latchWords c us (latchWords c ws m) := List.foldl_append

theorem latchWords_showWords {c : Cfg} (hc : c.wf = true) (p : Pattern) (m : Memory) :
    latchWords c (showWords p) m = writeRows p.row rows m := by
  simp only [latchWords, showWords, List.foldl_map, frameReg_frameWord, frameVal_frameWord, chipLatch_row hc, writeRows]

theorem initPair_ne_noop {c : Cfg} (hc : c.wf = true) (k : Fin 6) : (c.initPair k).1 ≠ c.regNoop := by
  obtain ⟨-, hdecode, hintensity, hscan, hshutdown, htest, -⟩ := Cfg.wf_distinct hc
  fin_cases k
  exacts [hshutdown.symm, htest.symm, hdecode.symm, hscan.symm, hintensity.symm, hshutdown.symm]

theorem initPair_ne_row {c : Cfg} (hc : c.wf = true) (k : Fin 6) (r : Fin 8) : (c.initPair k).1 ≠ regRow r := by
  obtain ⟨-, hdecode, hintensity, hscan, hshutdown, htest⟩ := (Cfg.wf_distinct hc).1 r
  fin_cases k
  exacts [hshutdown.symm, htest.symm, hdecode.symm, hscan.symm, hintensity.symm, hshutdown.symm]

theorem initPair_mem_addresses (c : Cfg) (k : Fin 6) : (c.initPair k).1 ∈ c.addresses := by
  fin_cases k <;> simp [Cfg.initPair, Cfg.addresses]

/-- DRV after the six configuration writes. -/
def writeConfig (c : Cfg) (m : Memory) : Memory :=
  initIndices.foldl (fun m k => Memory.write m (c.initPair k).1 (c.initPair k).2) m

theorem read_writeConfig_other {c : Cfg} {a : Byte} (ha : ∀ k, a ≠ (c.initPair k).1) (m : Memory) :
    Memory.read (writeConfig c m) a = Memory.read m a := by
  simp only [writeConfig, initIndices, List.foldl_cons, List.foldl_nil, Memory.write, read_insert, if_neg (ha _)]

/-- Each configuration register holds the value last written to it: `REG_SHUTDOWN` that of normal operation (41_matrix_ops.md R111). -/
theorem read_writeConfig {c : Cfg} (hc : c.wf = true) (m : Memory) :
    Memory.read (writeConfig c m) c.regShutdown = some c.valNormal ∧ Memory.read (writeConfig c m) c.regDisptest = some c.valTestOff ∧
      Memory.read (writeConfig c m) c.regDecode = some c.valDecodeRaw ∧
      Memory.read (writeConfig c m) c.regScanlimit = some c.valScanAll8 ∧
      Memory.read (writeConfig c m) c.regIntensity = some c.valIntensity := by
  obtain ⟨-, -, -, -, -, -, hdi, hds, hdh, hdt, his, hih, hit, hsh, hst, hht⟩ := Cfg.wf_distinct hc
  simp [writeConfig, initIndices, Cfg.initPair, Memory.write, read_insert, hdi, hds, hdh, hdt.symm, his.symm, hih, hit.symm, hsh,
    hst.symm, hht.symm]

/-- DRV after `initialize`: the configuration writes, then the rows cleared. -/
def initDrv (c : Cfg) (m : Memory) : Memory := writeRows Pattern.blank.row rows (writeConfig c m)

theorem latchWords_initWords {c : Cfg} (hc : c.wf = true) (m : Memory) : latchWords c c.initWords m = initDrv c m := by
  rw [initDrv, Cfg.initWords, latchWords_append, clearWords_eq_showWords, latchWords_showWords hc]
  simp only [latchWords, List.foldl_map, frameReg_frameWord, frameVal_frameWord, writeConfig,
    chipLatch_enumerated _ (initPair_ne_noop hc _) (initPair_mem_addresses c _)]

theorem blank_row (r : Fin 8) : Pattern.blank.row r = 0 := by
  revert r; decide

theorem read_initDrv_row (c : Cfg) (m : Memory) (r : Fin 8) : Memory.read (initDrv c m) (regRow r) = some 0 := by
  rw [initDrv, read_writeRows_row _ (mem_rows r), blank_row]

/-- Clearing the rows leaves the configuration registers as they were written. -/
theorem read_initDrv_config {c : Cfg} (hc : c.wf = true) (m : Memory) :
    Memory.read (initDrv c m) c.regShutdown = some c.valNormal ∧ Memory.read (initDrv c m) c.regDisptest = some c.valTestOff ∧
      Memory.read (initDrv c m) c.regDecode = some c.valDecodeRaw ∧ Memory.read (initDrv c m) c.regScanlimit = some c.valScanAll8 ∧
      Memory.read (initDrv c m) c.regIntensity = some c.valIntensity := by
  have hkeep : ∀ k, Memory.read (initDrv c m) (c.initPair k).1 = Memory.read (writeConfig c m) (c.initPair k).1 :=
    fun k => read_writeRows_other _ (fun r _ => initPair_ne_row hc k r) _
  obtain ⟨hshutdown, htest, hdecode, hscan, hintensity⟩ := read_writeConfig hc m
  exact ⟨(hkeep 0).trans hshutdown, (hkeep 1).trans htest, (hkeep 2).trans hdecode, (hkeep 3).trans hscan,
    (hkeep 4).trans hintensity⟩

/-- No other entry changes: `REG_NOOP` and the reserved addresses are neither row nor configuration registers. -/
theorem read_initDrv_other {c : Cfg} (hc : c.wf = true) (m : Memory) {a : Byte} (ha : a = c.regNoop ∨ a ∉ c.addresses) :
    Memory.read (initDrv c m) a = Memory.read m a := by
  have hne : ∀ b ∈ c.addresses, b ≠ c.regNoop → a ≠ b := by
    rintro b hb hn rfl
    exact ha.elim hn (absurd hb)
  obtain ⟨hrows, -⟩ := Cfg.wf_distinct hc
  rw [initDrv, read_writeRows_other _ fun r _ => hne _ (regRow_mem_addresses c r) (hrows r).1,
    read_writeConfig_other fun k => hne _ (initPair_mem_addresses c k) (initPair_ne_noop hc k)]

end Sys2Proof.Machine
end

/-! ### The composites on good draws -/

section
namespace Sys2Proof.Machine

theorem execShow_running {o : ShowOperand} {s : State} {p : Pattern} (hr : Running s) (h : s.cfg.shownPattern o = some p) :
    exec (.showPattern o) s = .next (showOp p s) := (execShow_pattern h).trans (complete_running _ s hr)

theorem clearOp_eq_showOp (s : State) : clearOp s = showOp Pattern.blank s := by
  simp only [clearOp, showOp, blank_row]

theorem exec_clear {s : State} (hr : Running s) : exec .clear s = .next (showOp Pattern.blank s) :=
  (complete_running clearOp s hr).trans (congrArg _ (clearOp_eq_showOp s))

theorem exec_initialise {s : State} (hr : Running s) : exec .initialise s = .next (initOp s) := complete_running initOp s hr

theorem exec_boot {s : State} (hr : Running s) : exec .boot s = .next (bootOp s) := complete_running bootOp s hr

/-- What `showPattern` leaves (41_matrix_ops.md R116). -/
def afterShow (p : Pattern) (s : State) : State :=
  { s with
    w := frameWord 0x08 p.row7, ph := 0, env := Env.afterBus 8 s.env, drv := writeRows p.row rows s.drv,
    trace := s.trace ++ frameEvents (showWords p) }

theorem drvShows_afterShow (p : Pattern) (s : State) : DrvShows p s.drv (afterShow p s).drv := drvShows_writeRows p s.drv

theorem afterShow_trace (p : Pattern) (s : State) : (afterShow p s).trace = s.trace ++ frameEvents (showWords p) := rfl

theorem Running.afterShow {s : State} (h : Running s) (p : Pattern) : Running (afterShow p s) := h

theorem showOp_ok (p : Pattern) {s : State} (hr : Running s) (hok : BusOk s.cfg 8 s.env) : showOp p s = afterShow p s := by
  rw [showOp_eq_foldl, foldl_writeRegister_ok (showWords p) hr hok, sentFrames_eq, latchWords_showWords hr.1]
  rfl

/-- `initialize` on good draws, whatever DRV held. -/
theorem initOp_ok {s : State} (hr : Running s) (hok : BusOk s.cfg 14 s.env) :
    initOp s =
      { s with
        w := 0x0800, ph := 0, pos := .bStatus, env := Env.afterBus 14 s.env, drv := initDrv s.cfg s.drv,
        trace := s.trace ++ frameEvents s.cfg.initWords } := by
  have hsent := foldl_sendAt_ok initFrames hr hok
  rw [map_posWord_initFrames, sentFrames_eq, latchWords_initWords hr.1] at hsent
  have hf : (initFrames.foldl (fun t p => sendAt p t) s).fault = 0 := hsent ▸ hr.2
  have hlast : ∀ w, s.cfg.initWords.getLastD w = 0x0800 := fun _ => rfl
  rw [initOp_eq_foldl, whenRunning_running _ _ hf, hsent, initWords_length]
  simp only [enter, atPos, word, Option.getD_none, hlast]

theorem exec_show_ok {o : ShowOperand} {s : State} {p : Pattern} (hr : Running s) (h : s.cfg.shownPattern o = some p)
    (hok : BusOk s.cfg 8 s.env) : exec (.showPattern o) s = .next (afterShow p s) := by
  rw [execShow_running hr h, showOp_ok p hr hok]

theorem exec_clear_ok {s : State} (hr : Running s) (hok : BusOk s.cfg 8 s.env) :
    exec .clear s = .next (afterShow Pattern.blank s) := by
  rw [exec_clear hr, showOp_ok _ hr hok]

/-- Settles O15: `clear` is `showPattern` of eight zero bytes. -/
theorem clearCompletes : Obligations.ClearCompletes := fun _ hr hok =>
  ⟨_, exec_clear_ok hr hok, drvShows_afterShow _ _⟩

/-- Settles O16: `afterShow` and its rows; an id names the pattern the library lists there. -/
theorem showCompletes : Obligations.ShowCompletes := by
  refine ⟨fun s o p hr ho hok => ?_, fun _ _ => rfl, fun s n hn => ?_, fun s n hc hn => ?_⟩
  · exact ⟨_, exec_show_ok hr ho hok, drvShows_afterShow p s⟩
  · exact ⟨s.cfg.patterns[n], List.getElem?_eq_getElem hn, List.getElem?_eq_getElem hn⟩
  · have hnone : s.cfg.shownPattern (.id n) = none := List.getElem?_eq_none (Nat.le_of_not_lt hn)
    rw [exec, execShow, hnone, hc]
    rfl

/-- The rows a pattern leaves are left so by the same pattern again. -/
theorem DrvShows.read_again {p : Pattern} {m m' m'' : Memory} (h : DrvShows p m m') (h' : DrvShows p m' m'') (a : Byte) :
    Memory.read m'' a = Memory.read m' a := by
  obtain ⟨hrow, -⟩ := h
  obtain ⟨hrow', hother, -⟩ := h'
  by_cases ha : ∃ r, a = regRow r
  · obtain ⟨r, rfl⟩ := ha
    rw [hrow, hrow']
  · exact hother a (not_exists.1 ha)

/-- Settles O18: both calls are `afterShow` of eight zero bytes. -/
theorem clearIsIdempotent : Obligations.ClearIsIdempotent := by
  intro s hr hok
  obtain ⟨hfirst, hsecond⟩ := busOk_add (m := 8) (n := 8) |>.1 hok
  exact ⟨afterShow Pattern.blank s, afterShow Pattern.blank (afterShow Pattern.blank s), exec_clear_ok hr hfirst,
    exec_clear_ok (hr.afterShow _) hsecond, (drvShows_afterShow _ s).read_again (drvShows_afterShow _ _), afterShow_trace _ s,
    afterShow_trace _ _⟩

/-- Settles O19: the three calls are `afterShow`, whose events depend on the pattern alone. -/
theorem patternRoundTrip : Obligations.PatternRoundTrip := by
  intro s o p hr ho hok
  obtain ⟨hshow, hrest⟩ := busOk_add (m := 8) (n := 16) |>.1 hok
  obtain ⟨hclear, hagain⟩ := busOk_add (m := 8) (n := 8) |>.1 hrest
  have hr' : Running (afterShow p s) := hr.afterShow p
  exact ⟨afterShow p s, afterShow Pattern.blank (afterShow p s), afterShow p (afterShow Pattern.blank (afterShow p s)),
    exec_show_ok hr ho hshow, exec_clear_ok hr' hclear, exec_show_ok (hr'.afterShow _) ho hagain,
    ⟨frameEvents (showWords p), afterShow_trace p s, afterShow_trace p _⟩, (drvShows_afterShow p _).1⟩

/-- Settles O17: `initOp_ok`, with the entries of `initDrv`. -/
theorem initializeCompletes : Obligations.InitializeCompletes := by
  intro s hr hok
  obtain ⟨hshutdown, htest, hdecode, hscan, hintensity⟩ := read_initDrv_config hr.1 s.drv
  refine ⟨initDrv s.cfg s.drv, ?_, read_initDrv_row s.cfg s.drv, hshutdown, htest, hdecode, hscan, hintensity,
    fun _ => read_initDrv_other hr.1 s.drv⟩
  rw [exec_initialise hr, initOp_ok hr hok]

end Sys2Proof.Machine
end

/-! ### A composite that fails -/

section
namespace Sys2Proof.Machine

/-- Settles O57: the stand-alone composites stop at the failing word, `initialize` and boot at its position; BusFault holds the wires. -/
theorem failedCompositeStops : Obligations.FailedCompositeStops := by
  intro s ws rest w p hr hok hfail
  have hshow : ∀ q, showWords q = ws ++ w :: rest → showOp q s = cutAfter ws w p s := fun q hq => by
    rw [showOp_eq_foldl, hq, foldl_writeRegister_fails w rest hr hok hfail]
  refine ⟨fun hws => ?_, fun o q ho hws => ?_, fun hws => ?_, outputs_csN_driven (.inr rfl) (failsAt_lt hfail)⟩
  · rw [exec_clear hr, hshow Pattern.blank hws]
  · rw [execShow_running hr ho, hshow q hws]
  · obtain ⟨q, hpath, hword, hinit⟩ := initOp_fails hr hok hfail hws
    refine ⟨q, hpath, hword, ?_, ?_⟩
    · rw [exec_initialise hr, hinit, atPos]
    · rw [exec_boot hr, bootOp, hinit, inPos_halted _ _ _ rfl, atPos]

end Sys2Proof.Machine
end

/-! ### The frames of `initialize` -/

section
namespace Sys2Proof.Machine

/-- Settles O4: the frames are the configuration writes and the row frames, each read as the command of its address. -/
theorem initializeOrder : Obligations.InitializeOrder := by
  refine ⟨fun c hc => ?_, rfl⟩
  simp only [Cfg.initWords, clearWords, List.map_append, List.map_map, Function.comp_def, decodeFrame_init hc, decodeFrame_row hc]
  rfl

end Sys2Proof.Machine
end

/-! ### The operations of MONITOR -/

section
namespace Sys2Proof.Machine

theorem edge_iff (cur prev : Bit) : edge cur prev = true ↔ cur = 1 ∧ prev = 0 := decide_eq_true_iff

/-- A read that answers `v` (42_monitor.md R125, R126): the edge decides MSTATE and the way on. -/
theorem sampleOp_ok {s : State} {v : Bit} (h : s.env.drawSensor.1 = ⟨0, v⟩) :
    sampleOp s =
      { s with
        env := s.env.drawSensor.2, trace := s.trace ++ [.rd v], cur := v
        mstate := if edge v s.prev then .alerted else s.mstate, pos := sampleTarget (edge v s.prev) } := by
  rw [sampleOp, h, takeSample_ok]

/-- Settles O21: `sampleOp_ok`, with the edge written out. -/
theorem sampleCompletes : Obligations.SampleCompletes := by
  intro s v hr h
  refine (complete_running sampleOp s hr).trans ?_
  simp only [sampleOp_ok h, sampleTarget, edge_iff]

/-- Settles O23: `tendOp` is these two writes. -/
theorem endOfTickCopiesTheSample : Obligations.EndOfTickCopiesTheSample := complete_running tendOp

/-- Settles O24: each of the two operations is one write and its event. -/
theorem indicatorOperations : Obligations.IndicatorOperations := fun s hr =>
  ⟨complete_running indSetOp s hr, complete_running indClrOp s hr⟩

/-- Settles O25: `statusOp` emits its event alone. -/
theorem statusRequestCompletes : Obligations.StatusRequestCompletes := fun s m hr => complete_running (statusOp m) s hr

/-- Settles O26: the guard of `DWELL` decides between `dwellOp`, which emits its event alone, and the refusal. -/
theorem dwellCompletes : Obligations.DwellCompletes := fun s n hr =>
  ⟨fun hn => (if_neg fun hg => hg.2 hn).trans (complete_running (dwellOp n) s hr), fun hn => if_pos ⟨hr.1, hn⟩⟩

end Sys2Proof.Machine
end

/-! ### Cycle counts -/

section
namespace Sys2Proof.Machine

theorem cycles_append (c : Cfg) (ps qs : List Pos) : cycles c (ps ++ qs) = cycles c ps + cycles c qs := by
  rw [cycles, List.map_append, List.sum_append, ← cycles, ← cycles]

theorem cycles_cons (c : Cfg) (p : Pos) (ps : List Pos) : cycles c (p :: ps) = len c p + cycles c ps := by
  rw [cycles, List.map_cons, List.sum_cons, ← cycles]

theorem cycles_flatMap {α : Type} (c : Cfg) (f : α → List Pos) (l : List α) :
    cycles c (l.flatMap f) = (l.map fun a => cycles c (f a)).sum := by
  induction l with
  | nil => rfl
  | cons a l ih => rw [List.flatMap_cons, cycles_append, ih, List.map_cons, List.sum_cons]

/-- Frame positions take a frame each. -/
theorem cycles_frames (c : Cfg) {ps : List Pos} (h : ∀ p ∈ ps, p.isFrame = true) : cycles c ps = ps.length * lenFrame c := by
  rw [cycles, List.map_congr_left fun p hp => len_of_isFrame c (h p hp), List.map_const', List.sum_replicate_nat]

theorem cycles_rows (c : Cfg) {f : Fin 8 → Pos} (h : ∀ r, (f r).isFrame = true) : cycles c (rows.map f) = 8 * lenFrame c :=
  cycles_frames c fun _ hp => by
    obtain ⟨r, -, rfl⟩ := List.mem_map.1 hp
    exact h r

/-- Settles O54: each path is cut into its frames and its single positions. -/
theorem cycleCounts : Obligations.CycleCounts := by
  intro c
  refine ⟨?_, ?_, ?_, rfl⟩
  · have hstep : ∀ n, cycles c (rows.map (Pos.aShow n) ++ [.aDwell n]) = 8 * lenFrame c + c.dwellCycles n := fun n => by
      rw [cycles_append, cycles_rows c fun _ => rfl]
      rfl
    have hclear : cycles c (rows.map Pos.aClear) = 8 * lenFrame c := cycles_rows c fun _ => rfl
    simp only [alertPath, cycles_append, cycles_flatMap, hstep, hclear]
    rfl
  · have hinit : cycles c initFrames = 14 * lenFrame c := cycles_frames c isFrame_of_mem_initFrames
    rw [bootPath_eq, cycles_cons, cycles_append, hinit, ← Nat.add_assoc]
    rfl
  · simp only [cycles_cons]
    show 1 + (1 + (c.pollCycles + 0)) = 2 + c.pollCycles
    omega

end Sys2Proof.Machine
end

/-! ### A path of alert positions -/

section
namespace Sys2Proof.Machine

/-- The operation of `alert()` at its position `p` (42_monitor.md R130, 43_loop.md R154). -/
def runAt : Pos → State → State
  | .aIndOn => inPos .aIndOn indSetOp
  | .aStatus => inPos .aStatus (statusOp .alert)
  | .aDwell n => inPos (.aDwell n) (dwellOp n)
  | .aIndOff => inPos .aIndOff indClrOp
  | .aRestore => inPos .aRestore (statusOp .monitoring)
  | p => sendAt p

theorem runAt_halted (p : Pos) {s : State} (h : s.fault = 1) : runAt p s = s := by
  cases p <;> exact inPos_halted _ _ s h

theorem runAt_frame {p : Pos} (hp : p.isFrame = true) : runAt p = sendAt p := by
  cases p with
  | bInit | bClear | aShow | aClear => rfl
  | _ => cases hp

/-- The frame words of a path, in order. -/
def pathWords (c : Cfg) (ps : List Pos) : List FrameWord := ps.filterMap (word c)

/-- IND after position `p`. -/
def indAfter (i : Bit) (p : Pos) : Bit := if p = .aIndOn then 1 else if p = .aIndOff then 0 else i

/-- What alert positions leave that do not fail: their frames sent, their table events, POS at the last. -/
def ranPath (ps : List Pos) (s : State) : State :=
  { s with
    ind := ps.foldl indAfter s.ind, w := (pathWords s.cfg ps).getLastD s.w, pos := ps.getLastD s.pos
    ph := if ps.isEmpty then s.ph else 0, env := Env.afterBus (pathWords s.cfg ps).length s.env
    drv := latchWords s.cfg (pathWords s.cfg ps) s.drv, trace := s.trace ++ ps.flatMap (tableEvents s.cfg 1) }

theorem ranPath_nil (s : State) : ranPath [] s = s := by
  simp [ranPath, pathWords, Env.afterBus, latchWords]

theorem ranPath_cons (p : Pos) (ps : List Pos) (s : State) : ranPath (p :: ps) s = ranPath ps (ranPath [p] s) := by
  cases hw : word s.cfg p <;>
    simp [ranPath, pathWords, hw, Env.afterBus, latchWords, List.getLastD_cons, List.getLastD_nil, -List.getLastD_eq_getLast?]

theorem runAt_ok {p : Pos} (hp : p.isAlert = true) {s : State} (hf : s.fault = 0)
    (hok : p.isFrame = true → failsAt s.cfg s.env.drawBus.1 = none) : runAt p s = ranPath [p] s := by
  cases p with
  | aShow | aClear => exact (sendAt_ok _ hf (hok rfl)).trans (congrArg (atPos _) (sentFrames_eq _ s))
  | aIndOn | aStatus | aDwell | aIndOff | aRestore => exact inPos_running _ _ s hf
  | _ => cases hp

/-- On good draws a path of alert positions runs to its end. -/
theorem foldl_runAt_ok {ps : List Pos} (hps : ∀ p ∈ ps, p.isAlert = true) {s : State} (hf : s.fault = 0)
    (hok : BusOk s.cfg (pathWords s.cfg ps).length s.env) : ps.foldl (fun t p => runAt p t) s = ranPath ps s := by
  induction ps generalizing s with
  | nil => exact (ranPath_nil s).symm
  | cons p ps ih =>
    obtain ⟨hp, hps⟩ := List.forall_mem_cons.1 hps
    have hsplit : (pathWords s.cfg (p :: ps)).length = (pathWords s.cfg [p]).length + (pathWords s.cfg ps).length := by
      rw [← List.length_append, pathWords, pathWords, pathWords, ← List.filterMap_append, List.singleton_append]
    obtain ⟨hhead, htail⟩ := busOk_add.1 (hsplit ▸ hok)
    have hone : runAt p s = ranPath [p] s := runAt_ok hp hf fun hframe => by
      rw [pathWords, List.filterMap_cons, word_eq_posWord s.cfg hframe] at hhead
      exact hhead.1
    rw [List.foldl_cons, hone, ih hps (s := ranPath [p] s) hf htail, ← ranPath_cons]

/-- The path's frame positions are entered with IND as `Pos.indHigh` says, when IND is `i` before the path (10_state.md R28(b)). -/
def IndTracks : Bit → List Pos → Prop
  | _, [] => True
  | i, p :: ps => (p.isFrame = true → i = if p.indHigh then 1 else 0) ∧ IndTracks (indAfter i p) ps

/-- The positions `before` whole and then the frame of position `q` cut in its cycle `n` (40_framer.md R81). -/
def cutPath (before : List Pos) (q : Pos) (n : Nat) (s : State) : State :=
  { s with
    ind := before.foldl indAfter s.ind, w := posWord s.cfg q, pos := q, ph := n, fault := 1, fcode := 1
    env := Env.afterBus ((pathWords s.cfg before).length + 1) s.env, drv := Memory.unknown
    trace := s.trace ++ before.flatMap (tableEvents s.cfg 1) ++ [.cs 0, .fault .bus] }

theorem cutPath_nil (q : Pos) (n : Nat) (s : State) :
    cutPath [] q n s = raiseBus n (openFrame (frameReg (posWord s.cfg q)) (frameVal (posWord s.cfg q)) (atPos q s)) := by
  simp [cutPath, raiseBus, raise, openFrame, emit, atPos, frameWord_fields, pathWords, Env.afterBus, Cause.code]

theorem cutPath_cons (p : Pos) (before : List Pos) (q : Pos) (n : Nat) (s : State) :
    cutPath (p :: before) q n s = cutPath before q n (ranPath [p] s) := by
  cases hw : word s.cfg p <;> simp [cutPath, ranPath, pathWords, hw, Env.afterBus]

/-- A path of alert positions runs to its end or stops at the first frame that fails. -/
theorem foldl_runAt_cases {ps : List Pos} (hps : ∀ p ∈ ps, p.isAlert = true) {s : State} (hf : s.fault = 0)
    (hind : IndTracks s.ind ps) :
    ps.foldl (fun t p => runAt p t) s = ranPath ps s ∨
      ∃ before q after n, ps = before ++ q :: after ∧ q.isFrame = true ∧ n < csEnd s.cfg ∧
        before.foldl indAfter s.ind = (if q.indHigh then 1 else 0) ∧
        ps.foldl (fun t p => runAt p t) s = cutPath before q n s := by
  induction ps generalizing s with
  | nil => exact .inl (ranPath_nil s).symm
  | cons p ps ih =>
    obtain ⟨hp, hps⟩ := List.forall_mem_cons.1 hps
    obtain ⟨hhead, htail⟩ := hind
    by_cases hok : p.isFrame = true → failsAt s.cfg s.env.drawBus.1 = none
    · rw [List.foldl_cons, runAt_ok hp hf hok]
      rcases ih hps (s := ranPath [p] s) hf htail with hrun | ⟨before, q, after, n, rfl, hq, hn, hi, hrun⟩
      · exact .inl (hrun.trans (ranPath_cons p ps s).symm)
      · exact .inr ⟨p :: before, q, after, n, rfl, hq, hn, hi, hrun.trans (cutPath_cons p before q n s).symm⟩
    · obtain ⟨hframe, hfail⟩ := Classical.not_imp.1 hok
      obtain ⟨n, hn⟩ := Option.ne_none_iff_exists'.1 hfail
      have hcut : runAt p s = cutPath [] p n s := by
        rw [cutPath_nil, ← sendAt_fails p hf hn, runAt_frame hframe]
      refine .inr ⟨[], p, ps, n, rfl, hframe, failsAt_lt hn, hhead hframe, ?_⟩
      rw [List.foldl_cons, hcut]
      exact foldl_keeps (P := (· = cutPath [] p n s)) (fun b u hu => by rw [hu, runAt_halted b rfl]) ps _ rfl

end Sys2Proof.Machine
end

/-! ### The alert sequence -/

section
namespace Sys2Proof.Machine

/-- Through the cinematic the indicator stays high. -/
theorem indTracks_cinematic {ps qs : List Pos} (hps : ∀ p ∈ ps, p.indHigh = true ∧ p ≠ .aIndOff) (hqs : IndTracks 1 qs) :
    IndTracks 1 (ps ++ qs) := by
  induction ps with
  | nil => exact hqs
  | cons p ps ih =>
    obtain ⟨⟨hhigh, hoff⟩, hps⟩ := List.forall_mem_cons.1 hps
    have hon : p ≠ .aIndOn := by
      rintro rfl
      cases hhigh
    refine ⟨fun _ => (if_pos hhigh).symm, ?_⟩
    rw [indAfter, if_neg hon, if_neg hoff]
    exact ih hps

theorem indTracks_alertPath (c : Cfg) (i : Bit) : IndTracks i (alertPath c) := by
  have hend : IndTracks 1 ([.aIndOff] ++ (rows.map Pos.aClear ++ [.aRestore])) := by
    simp [rows, IndTracks, indAfter, Pos.isFrame, Pos.indHigh]
  have hcine : ∀ p ∈ (List.range c.nSteps).flatMap (fun n => rows.map (Pos.aShow n) ++ [.aDwell n]),
      p.indHigh = true ∧ p ≠ .aIndOff := by
    intro p hp
    obtain ⟨n, -, hp⟩ := List.mem_flatMap.1 hp
    rcases List.mem_append.1 hp with hp | hp
    · obtain ⟨r, -, rfl⟩ := List.mem_map.1 hp
      exact ⟨rfl, nofun⟩
    · obtain rfl := List.mem_singleton.1 hp
      exact ⟨rfl, nofun⟩
  have htail := indTracks_cinematic hcine hend
  rw [alertPath, List.append_assoc, List.append_assoc, List.append_assoc]
  exact ⟨nofun, nofun, htail⟩

theorem isAlert_of_mem_alertPath {c : Cfg} : ∀ p ∈ alertPath c, p.isAlert = true := by
  intro p hp
  simp only [alertPath, List.mem_append, List.mem_flatMap, List.mem_map, List.mem_cons, List.not_mem_nil, or_false] at hp
  rcases hp with ((((rfl | rfl) | ⟨n, -, ⟨r, -, rfl⟩ | rfl⟩) | rfl) | ⟨r, -, rfl⟩) | rfl <;> rfl

/-- The end of `alert()` at `A_RESTORE` is its event and then the way on to `T_END`. -/
theorem inPos_aRestore (s : State) :
    inPos .aRestore (fun t => enter .tEnd (leaveAlert (statusOp .monitoring t))) s =
      whenRunning (fun t => enter .tEnd (leaveAlert t)) (runAt .aRestore s) := by
  rcases fault_cases s with hf | hf
  · rw [inPos_running _ _ s hf, runAt, inPos_running _ _ s hf]
    exact (whenRunning_running (fun t => enter .tEnd (leaveAlert t)) (statusOp .monitoring { s with pos := .aRestore, ph := 0 })
      hf).symm
  · rw [inPos_halted _ _ s hf, runAt_halted _ hf, whenRunning_halted _ s hf]

theorem runAt_aShow (n : Nat) (r : Fin 8) :
    runAt (.aShow n r) = inPos (.aShow n r) fun u => writeRegister (regRow r) ((u.cfg.stepPattern n).row r) u := by
  simp only [runAt, sendAt, posWord, word, Option.getD_some, frameReg_frameWord, frameVal_frameWord]

theorem runAt_aClear (r : Fin 8) : runAt (.aClear r) = inPos (.aClear r) (writeRegister (regRow r) 0) := by
  simp only [runAt, sendAt, posWord, word, Option.getD_some, frameReg_frameWord, frameVal_frameWord]

theorem clearAt_eq_foldl (s : State) : clearAt .aClear s = (rows.map Pos.aClear).foldl (fun t p => runAt p t) s := by
  simp only [clearAt, forRows, List.foldl_map, runAt_aClear]

theorem cinematicStep_eq_foldl (n : Nat) (s : State) :
    cinematicStep n s = (rows.map (Pos.aShow n) ++ [Pos.aDwell n]).foldl (fun t p => runAt p t) s := by
  simp only [cinematicStep, forRows, List.foldl_append, List.foldl_map, runAt_aShow, List.foldl_cons, List.foldl_nil]
  simp only [runAt]

/-- `alert()` runs the operations of its path. -/
theorem alertOp_eq_foldl (s : State) :
    alertOp s = whenRunning (fun t => enter .tEnd (leaveAlert t)) ((alertPath s.cfg).foldl (fun t p => runAt p t) s) := by
  have hkeep : Keeps State.cfg fun t => inPos .aStatus (statusOp .alert) (inPos .aIndOn indSetOp t) :=
    Keeps.comp (Keeps.inPos ⟨fun _ => rfl⟩ ⟨fun _ => rfl⟩) (Keeps.inPos ⟨fun _ => rfl⟩ ⟨fun _ => rfl⟩)
  simp only [alertOp_eq, inPos_aRestore, cinematic, hkeep.eq s, cinematicStep_eq_foldl, clearAt_eq_foldl, alertPath, List.foldl_append,
    List.foldl_flatMap, List.foldl_cons, List.foldl_nil]
  simp only [runAt]

/-- The frames of the path are the image of `ALERT` (30_encoding.md R71). -/
theorem pathWords_alertPath (c : Cfg) : pathWords c (alertPath c) = c.alertWords := by
  have hstep : ∀ n, (rows.map (Pos.aShow n) ++ [Pos.aDwell n]).filterMap (word c) = showWords (c.stepPattern n) := fun _ => rfl
  have hon : [Pos.aIndOn, .aStatus].filterMap (word c) = [] := rfl
  have hoff : [Pos.aIndOff].filterMap (word c) = [] := rfl
  have hclear : (rows.map Pos.aClear).filterMap (word c) = clearWords := rfl
  have hrestore : [Pos.aRestore].filterMap (word c) = [] := rfl
  rw [pathWords, alertPath, List.filterMap_append, List.filterMap_append, List.filterMap_append, List.filterMap_append,
    List.filterMap_flatMap, hon, hoff, hclear, hrestore, List.nil_append, List.append_nil, List.append_nil, Cfg.alertWords]
  simp only [hstep]

/-- The table's events along the path are those of the alert sequence. -/
theorem tableEvents_alertPath (c : Cfg) (v : Bit) : (alertPath c).flatMap (tableEvents c v) = alertEvents c := by
  simp only [alertPath, List.flatMap_append, List.flatMap_assoc]
  rfl

theorem DrvShows.trans {p q : Pattern} {m m' m'' : Memory} (h : DrvShows p m m') (h' : DrvShows q m' m'') : DrvShows q m m'' := by
  obtain ⟨-, hother, hwf⟩ := h
  obtain ⟨hrow, hother', hwf'⟩ := h'
  exact ⟨hrow, fun b hb => (hother' b hb).trans (hother b hb), fun hm => hwf' (hwf hm)⟩

theorem drvShows_latchWords {c : Cfg} (hc : c.wf = true) (p : Pattern) (m : Memory) :
    DrvShows p m (latchWords c (showWords p) m) :=
  latchWords_showWords hc p m ▸ drvShows_writeRows p m

/-- Whatever patterns were shown, clearing last leaves every row 0x00. -/
theorem drvShows_shows_clear {c : Cfg} (hc : c.wf = true) (f : Nat → Pattern) (l : List Nat) (m : Memory) :
    DrvShows Pattern.blank m (latchWords c ((l.flatMap fun n => showWords (f n)) ++ clearWords) m) := by
  induction l generalizing m with
  | nil => exact drvShows_latchWords hc Pattern.blank m
  | cons n l ih =>
    rw [List.flatMap_cons, List.append_assoc, latchWords_append]
    exact (drvShows_latchWords hc (f n) m).trans (ih _)

/-- What `alert()` leaves (42_monitor.md R130). -/
def afterAlert (s : State) : State :=
  { s with
    ind := 0, mstate := .idle, w := 0x0800, pos := .tEnd, ph := 0, env := Env.afterBus (alertFrames s.cfg) s.env
    drv := latchWords s.cfg s.cfg.alertWords s.drv, trace := s.trace ++ alertEvents s.cfg }

theorem drvShows_afterAlert {s : State} (hc : s.cfg.wf = true) : DrvShows Pattern.blank s.drv (afterAlert s).drv :=
  drvShows_shows_clear hc s.cfg.stepPattern (List.range s.cfg.nSteps) s.drv

/-- The last position that writes IND is `A_IND_OFF`. -/
theorem foldl_indAfter_alertPath (c : Cfg) (i : Bit) : (alertPath c).foldl indAfter i = 0 := by
  simp only [alertPath, List.foldl_append]
  rfl

theorem alertWords_getLastD (c : Cfg) (w : FrameWord) : c.alertWords.getLastD w = 0x0800 := by
  rw [List.getLastD_eq_getLast?, Cfg.alertWords, List.getLast?_append]
  rfl

theorem alertOp_ok {s : State} (hr : Running s) (hok : BusOk s.cfg (alertFrames s.cfg) s.env) : alertOp s = afterAlert s := by
  have hlen : (pathWords s.cfg (alertPath s.cfg)).length = alertFrames s.cfg := by
    rw [pathWords_alertPath, alertWords_length, alertFrames]
  have hran := foldl_runAt_ok isAlert_of_mem_alertPath hr.2 (hlen.symm ▸ hok)
  have hf : ((alertPath s.cfg).foldl (fun t p => runAt p t) s).fault = 0 := hran ▸ hr.2
  rw [alertOp_eq_foldl, whenRunning_running _ _ hf, hran, ranPath, hlen, pathWords_alertPath, tableEvents_alertPath,
    foldl_indAfter_alertPath, alertWords_getLastD]
  rfl

theorem exec_alert {s : State} (hr : Running s) : exec .alert s = .next (alertOp s) := complete_running alertOp s hr

/-- Settles O28: `alertOp_ok`, with the rows of the closing clear. -/
theorem alertCompletes : Obligations.AlertCompletes := fun _ hr hok =>
  ⟨_, (exec_alert hr).trans (congrArg _ (alertOp_ok hr hok)), drvShows_afterAlert hr.1⟩

/-- An alert sequence that does not complete is cut at a frame of its path. -/
theorem alertOp_fails {s : State} (hf : s.fault = 0) (h : (alertOp s).fault = 1) :
    ∃ before q after n, alertPath s.cfg = before ++ q :: after ∧ q.isFrame = true ∧ n < csEnd s.cfg ∧
      before.foldl indAfter s.ind = (if q.indHigh then 1 else 0) ∧ alertOp s = cutPath before q n s := by
  rw [alertOp_eq_foldl] at h ⊢
  rcases foldl_runAt_cases isAlert_of_mem_alertPath hf (indTracks_alertPath s.cfg s.ind) with
    hran | ⟨before, q, after, n, hpath, hq, hn, hind, hcut⟩
  · have hrun : (ranPath (alertPath s.cfg) s).fault = 0 := hf
    rw [hran, whenRunning_running _ _ hrun] at h
    exact absurd (h.symm.trans hrun) (by decide)
  · exact ⟨before, q, after, n, hpath, hq, hn, hind, by rw [hcut, whenRunning_halted _ _ rfl]⟩

/-- Settles O32: the cut frame's position is one of the path, `W` its word, and no frame writes the registers. -/
theorem failedAlertFreezes : Obligations.FailedAlertFreezes := by
  intro s t hr hx hfault
  have ht : t = alertOp s := complete_running_cases hr hx
  rw [ht] at hfault
  obtain ⟨before, q, after, n, hpath, hq, hn, hind, hcut⟩ := alertOp_fails hr.2 hfault
  have halert : q.isAlert = true := isAlert_of_mem_alertPath (c := s.cfg) q (by simp [hpath])
  rw [ht, hcut]
  exact ⟨rfl, halert, hq, hn, word_eq_posWord s.cfg hq, rfl, rfl, rfl, hind, outputs_csN_driven (.inl hq) hn, read_unknown, before, after,
    hpath, rfl⟩

end Sys2Proof.Machine
end

/-! ### The tick -/

section
namespace Sys2Proof.Machine

theorem exec_tick {s : State} (hr : Running s) : exec .tick s = .next (tickOp s) := complete_running tickOp s hr

theorem exec_iter {s : State} (hr : Running s) : exec .iter s = .next (inPos .sleep sleepOp (tickOp s)) :=
  complete_running iterOp s hr

/-- A tick up to its end: the sample, and the alert sequence if it fired (42_monitor.md R127). -/
def tickBody (s : State) : State :=
  if (inPos .sample sampleOp s).mstate = .alerted then whenRunning alertOp (inPos .sample sampleOp s) else inPos .sample sampleOp s

theorem tickOp_eq_tickBody (s : State) : tickOp s = inPos .tEnd tendOp (tickBody s) := rfl

theorem tickOp_ok {s : State} (h : (tickBody s).fault = 0) :
    tickOp s = { tickBody s with prev := (tickBody s).cur, pos := .sleep, ph := 0 } := by
  rw [tickOp_eq_tickBody, inPos_running _ _ _ h, tendOp]

/-- The state at the end of `SAMPLE` in a tick that reads `v`. -/
def sampled (v : Bit) (s : State) : State :=
  { s with
    env := s.env.drawSensor.2, trace := s.trace ++ [.rd v], cur := v
    mstate := if edge v s.prev then .alerted else s.mstate, pos := sampleTarget (edge v s.prev), ph := 0 }

theorem inPos_sample_ok {s : State} {v : Bit} (hf : s.fault = 0) (hread : s.env.drawSensor.1 = ⟨0, v⟩) :
    inPos .sample sampleOp s = sampled v s :=
  (inPos_running _ _ s hf).trans (sampleOp_ok (s := { s with pos := .sample, ph := 0 }) hread)

theorem tickBody_noEdge {s : State} {v : Bit} (hf : s.fault = 0) (hidle : s.mstate = .idle) (hread : s.env.drawSensor.1 = ⟨0, v⟩)
    (hedge : edge v s.prev = false) : tickBody s = sampled v s := by
  have hstay : (sampled v s).mstate ≠ .alerted := by simp [sampled, hedge, hidle]
  rw [tickBody, inPos_sample_ok hf hread, if_neg hstay]

theorem tickBody_edge {s : State} {v : Bit} (hr : Running s) (hread : s.env.drawSensor.1 = ⟨0, v⟩) (hedge : edge v s.prev = true)
    (hok : BusOk s.cfg (alertFrames s.cfg) s.env.drawSensor.2) : tickBody s = afterAlert (sampled v s) := by
  have hfired : (sampled v s).mstate = .alerted := if_pos hedge
  have hr' : Running (sampled v s) := hr
  rw [tickBody, inPos_sample_ok hr.2 hread, if_pos hfired, whenRunning_running _ _ hr'.2, alertOp_ok hr' hok]

/-- A tick in IDLE without an edge only records the sample (42_monitor.md R127, R128). -/
theorem tickOp_noEdge {s : State} {v : Bit} (hf : s.fault = 0) (hidle : s.mstate = .idle) (hread : s.env.drawSensor.1 = ⟨0, v⟩)
    (hedge : edge v s.prev = false) :
    tickOp s =
      { s with prev := v, cur := v, pos := .sleep, ph := 0, env := s.env.drawSensor.2, trace := s.trace ++ [.rd v] } := by
  have hbody : tickBody s = sampled v s := tickBody_noEdge hf hidle hread hedge
  rw [tickOp_ok (hbody ▸ hf), hbody]
  simp [sampled, hedge]

/-- A tick with an edge runs the alert sequence in between. -/
theorem tickOp_edge {s : State} {v : Bit} (hr : Running s) (hread : s.env.drawSensor.1 = ⟨0, v⟩) (hedge : edge v s.prev = true)
    (hok : BusOk s.cfg (alertFrames s.cfg) s.env.drawSensor.2) :
    tickOp s =
      { s with
        prev := v, cur := v, ind := 0, mstate := .idle, w := 0x0800, pos := .sleep, ph := 0
        env := Env.afterBus (alertFrames s.cfg) s.env.drawSensor.2, drv := latchWords s.cfg s.cfg.alertWords s.drv
        trace := s.trace ++ [.rd v] ++ alertEvents s.cfg } := by
  have hbody : tickBody s = afterAlert (sampled v s) := tickBody_edge hr hread hedge hok
  rw [tickOp_ok (hbody ▸ hr.2), hbody]
  rfl

/-- Settles O29: the edge decides between `tickOp_noEdge` and `tickOp_edge`. -/
theorem tickCompletes : Obligations.TickCompletes := by
  intro s v hr hread
  refine ⟨fun hidle hno => ?_, fun hyes hok => ?_⟩
  · rw [exec_tick hr, tickOp_noEdge hr.2 hidle hread (decide_eq_false hno)]
  · obtain ⟨rfl, hprev⟩ := hyes
    exact ⟨_, (exec_tick hr).trans (congrArg _ (tickOp_edge hr hread (decide_eq_true ⟨rfl, hprev⟩) hok)),
      drvShows_shows_clear hr.1 s.cfg.stepPattern _ s.drv⟩

theorem tickBody_prev (s : State) : (tickBody s).prev = s.prev := by
  have hsample : Keeps State.prev (inPos .sample sampleOp) :=
    Keeps.inPos ⟨fun _ => rfl⟩ ⟨fun s => (Prod.mk.inj (sampleOp_keeps.eq s)).1⟩
  have halert : Keeps State.prev (whenRunning alertOp) := Keeps.whenRunning ⟨fun s => (Prod.mk.inj (alertOp_keeps.eq s)).1⟩
  rw [tickBody]
  split_ifs
  exacts [(halert.eq _).trans (hsample.eq s), hsample.eq s]

/-- A tick that fails stops before its end. -/
theorem tickOp_of_fails {s : State} (h : (tickOp s).fault = 1) : tickOp s = tickBody s := by
  rw [tickOp_eq_tickBody] at h ⊢
  rcases fault_cases (tickBody s) with hu | hu
  · rw [inPos_running _ _ _ hu] at h
    exact absurd (hu.symm.trans h) (by decide)
  · exact inPos_halted _ _ _ hu

/-- Settles O33: `tend()` did not run, and a halted block skips the sleep. -/
theorem failedTickSkipsItsEnd : Obligations.FailedTickSkipsItsEnd := by
  intro s t hr hx hfault
  have ht : t = tickOp s := complete_running_cases hr hx
  rw [ht] at hfault ⊢
  exact ⟨by rw [tickOp_of_fails hfault, tickBody_prev], by rw [exec_iter hr, inPos_halted _ _ _ hfault]⟩

end Sys2Proof.Machine
end

/-! ### Iterations -/

section
namespace Sys2Proof.Machine

/-! The bus and the sensor answer independently of each other. -/

theorem drawBus_drawSensor (e : Env) : e.drawSensor.2.drawBus = (e.drawBus.1, e.drawBus.2.drawSensor.2) := by
  obtain ⟨bus, sensor, nb, ns⟩ := e
  cases bus <;> cases sensor <;> rfl

theorem drawSensor_drawBus (e : Env) : e.drawBus.2.drawSensor.1 = e.drawSensor.1 := by
  obtain ⟨bus, sensor, nb, ns⟩ := e
  cases bus <;> cases sensor <;> rfl

theorem busOk_drawSensor {c : Cfg} {n : Nat} {e : Env} : BusOk c n e.drawSensor.2 ↔ BusOk c n e := by
  induction n generalizing e with
  | zero => rfl
  | succ n ih => rw [BusOk, BusOk, drawBus_drawSensor, ih]

theorem sensorGives_drawBus {vs : List Bit} {e : Env} : SensorGives vs e.drawBus.2 ↔ SensorGives vs e := by
  induction vs generalizing e with
  | nil => rfl
  | cons v vs ih =>
    have henv : e.drawBus.2.drawSensor.2 = e.drawSensor.2.drawBus.2 := (congrArg Prod.snd (drawBus_drawSensor e)).symm
    rw [SensorGives, SensorGives, drawSensor_drawBus, henv, ih]

theorem sensorGives_afterBus {n : Nat} {vs : List Bit} {e : Env} : SensorGives vs (Env.afterBus n e) ↔ SensorGives vs e := by
  induction n generalizing e with
  | zero => rfl
  | succ n ih => rw [Env.afterBus, ih, sensorGives_drawBus]

/-- The bus draws a tick with sample `v` takes. -/
def tickFrames (c : Cfg) (prev v : Bit) : Nat := if edge v prev then alertFrames c else 0

/-- An iteration from a tick boundary with sample `v` (43_loop.md R152), back at a tick boundary. -/
structure Iterated (v : Bit) (s t : State) : Prop where
  boundary : TickBoundary t
  cfg      : t.cfg = s.cfg
  prev     : t.prev = v
  env      : t.env = Env.afterBus (tickFrames s.cfg s.prev v) s.env.drawSensor.2
  trace    : t.trace = s.trace ++ tickEvents s.cfg s.prev v ++ [.sleep]
  drv      : edge v s.prev = false → t.drv = s.drv

theorem exec_iter_of_tick {s u : State} (hr : Running s) (h : tickOp s = u) (hu : u.fault = 0) :
    exec .iter s = .next { u with pos := .sample, ph := 0, trace := u.trace ++ [.sleep] } := by
  rw [exec_iter hr, h, inPos_running _ _ u hu]
  rfl

theorem exec_iter_ok {s : State} {v : Bit} (h : TickBoundary s) (hread : s.env.drawSensor.1 = ⟨0, v⟩)
    (hok : BusOk s.cfg (tickFrames s.cfg s.prev v) s.env.drawSensor.2) :
    ∃ t, exec .iter s = .next t ∧ Iterated v s t := by
  obtain ⟨hr, -, -, hind, hidle⟩ := h
  cases hedge : edge v s.prev with
  | false =>
    refine ⟨_, exec_iter_of_tick hr (tickOp_noEdge hr.2 hidle hread hedge) hr.2, ?_⟩
    exact
      { boundary := ⟨hr, rfl, rfl, hind, hidle⟩
        cfg := rfl
        prev := rfl
        env := by simp [tickFrames, hedge, Env.afterBus]
        trace := by simp [tickEvents, hedge]
        drv := fun _ => rfl }
  | true =>
    rw [tickFrames, if_pos hedge] at hok
    refine ⟨_, exec_iter_of_tick hr (tickOp_edge hr hread hedge hok) hr.2, ?_⟩
    exact
      { boundary := ⟨hr, rfl, rfl, rfl, rfl⟩
        cfg := rfl
        prev := rfl
        env := by simp [tickFrames, hedge]
        trace := by simp [tickEvents, hedge]
        drv := fun hno => absurd (hedge.symm.trans hno) (by decide) }

/-- The bus draws of iterations: an alert's frames for each rising edge. -/
theorem alertFrames_mul_risingEdges (c : Cfg) (prev v : Bit) (vs : List Bit) :
    alertFrames c * risingEdges prev (v :: vs) = tickFrames c prev v + alertFrames c * risingEdges v vs := by
  rw [risingEdges, tickFrames]
  split_ifs <;> ring

/-- From tick boundary to tick boundary, over any samples. -/
theorem iterate_ok {vs : List Bit} {s : State} (h : TickBoundary s) (hread : SensorGives vs s.env)
    (hok : BusOk s.cfg (alertFrames s.cfg * risingEdges s.prev vs) s.env) :
    ∃ t, iterate vs.length s = .next t ∧ TickBoundary t ∧ t.prev = vs.getLastD s.prev ∧
      t.trace = s.trace ++ iterEvents s.cfg s.prev vs ∧ (risingEdges s.prev vs = 0 → t.drv = s.drv) := by
  induction vs generalizing s with
  | nil => exact ⟨s, rfl, h, rfl, (List.append_nil _).symm, fun _ => rfl⟩
  | cons v vs ih =>
    obtain ⟨hv, hvs⟩ := hread
    rw [alertFrames_mul_risingEdges, ← busOk_drawSensor, busOk_add] at hok
    obtain ⟨hhead, htail⟩ := hok
    obtain ⟨t, hx, ht⟩ := exec_iter_ok h hv hhead
    have hread' : SensorGives vs t.env := by rw [ht.env, sensorGives_afterBus]; exact hvs
    have hok' : BusOk t.cfg (alertFrames t.cfg * risingEdges t.prev vs) t.env := by rw [ht.env, ht.cfg, ht.prev]; exact htail
    obtain ⟨u, hu, hb, hprev, htrace, hdrv⟩ := ih ht.boundary hread' hok'
    refine ⟨u, ?_, hb, ?_, ?_, fun hno => ?_⟩
    · rw [List.length_cons, iterate, hx]
      exact hu
    · rw [hprev, ht.prev, List.getLastD_cons]
    · rw [htrace, ht.trace, ht.cfg, ht.prev, iterEvents]
      simp only [List.append_assoc]
    · obtain ⟨hhead, htail⟩ := Nat.add_eq_zero_iff.1 hno
      have hedge : edge v s.prev = false := by simpa using hhead
      rw [hdrv (ht.prev ▸ htail), ht.drv hedge]

theorem count_ind_frameEvents (b : Bit) (ws : List FrameWord) : (frameEvents ws).count (.ind b) = 0 := by
  refine List.count_eq_zero.2 fun h => ?_
  obtain ⟨w, -, hw⟩ := List.mem_flatMap.1 h
  simp at hw

/-- An alert sequence raises the indicator once. -/
theorem count_ind_alertEvents (c : Cfg) : (alertEvents c).count (.ind 1) = 1 := by
  have hsteps : ((List.range c.nSteps).flatMap (stepEvents c)).count (.ind 1) = 0 := by
    refine List.count_eq_zero.2 fun h => ?_
    obtain ⟨n, -, hn⟩ := List.mem_flatMap.1 h
    rcases List.mem_append.1 hn with hn | hn
    · exact List.count_eq_zero.1 (count_ind_frameEvents 1 _) hn
    · simp at hn
  simp only [alertEvents, List.count_append, hsteps, count_ind_frameEvents]
  rfl

theorem count_ind_iterEvents (c : Cfg) (prev : Bit) (vs : List Bit) :
    (iterEvents c prev vs).count (.ind 1) = risingEdges prev vs := by
  induction vs generalizing prev with
  | nil => rfl
  | cons v vs ih =>
    have htick : (tickEvents c prev v).count (.ind 1) = if edge v prev then 1 else 0 := by
      rw [tickEvents, List.count_cons_of_ne (by simp)]
      split_ifs
      exacts [count_ind_alertEvents c, rfl]
    rw [iterEvents, List.count_append, List.count_append, htick, ih, risingEdges]
    rfl

/-- Settles O50: `iterate_ok`, and the count of its events. -/
theorem alertsAreTheRisingEdges : Obligations.AlertsAreTheRisingEdges := by
  intro vs s h hread hok
  obtain ⟨t, hx, hb, hprev, htrace, -⟩ := iterate_ok h hread hok
  exact ⟨t, hx, hb, hprev, htrace, by rw [htrace, List.count_append, count_ind_iterEvents]⟩

/-- A sensor that stays high never rises. -/
theorem risingEdges_replicate (n : Nat) : risingEdges 1 (List.replicate n 1) = 0 := by
  induction n with
  | zero => rfl
  | succ n ih =>
    rw [List.replicate_succ, risingEdges, ih]
    rfl

/-- Settles O51: no rising edge, so no bus draw is taken. -/
theorem highSensorAtBootRaisesNoAlert : Obligations.HighSensorAtBootRaisesNoAlert := by
  intro n s h hprev hread
  have hrise : risingEdges s.prev (List.replicate n 1) = 0 := by rw [hprev, risingEdges_replicate]
  have hok : BusOk s.cfg (alertFrames s.cfg * risingEdges s.prev (List.replicate n 1)) s.env := by
    rw [hrise, Nat.mul_zero]
    trivial
  obtain ⟨t, hx, hb, hlast, htrace, hdrv⟩ := iterate_ok h hread hok
  rw [List.length_replicate] at hx
  have ⟨_, _, _, hind, _⟩ := hb
  refine ⟨t, hx, hb, ?_, hind, hdrv hrise, by rw [htrace, List.count_append, count_ind_iterEvents, hrise, Nat.add_zero]⟩
  rw [hlast, hprev, List.getLastD_eq_getLast?, List.getLast?_replicate]
  split_ifs <;> rfl

end Sys2Proof.Machine
end

/-! ### The step, case by case -/

section
namespace Sys2Proof.Machine

theorem step_rst {s : State} (hc : s.cfg.wf = true) (hr : s.rst = 1) : step s = .next (resetEdge s) := by
  simp [step, hc, hr]

theorem step_halted {s : State} (hc : s.cfg.wf = true) (hr : s.rst ≠ 1) (hf : s.fault = 1) : step s = .next s := by
  rw [step, if_neg (by simp [hc]), if_neg hr, if_pos hf]

theorem step_noOperation {s : State} (h : Ready s) (hi : fetch s = none) : step s = .next (moveOn s.pos s) := by
  obtain ⟨⟨hc, hf⟩, hr, hph, hp⟩ := h
  simp [step, hc, hr, hf, hp, hph, hi]

theorem step_operation {s : State} {i : Instr} (h : Ready s) (hi : fetch s = some i) : step s = andMoveOn s.pos (exec i s) := by
  obtain ⟨⟨hc, hf⟩, hr, hph, hp⟩ := h
  simp [step, hc, hr, hf, hp, hph, hi]

end Sys2Proof.Machine
end

/-! ### The sensor's future answers -/

section
namespace Sys2Proof.Machine

/-- The operation `f` does not look at what the sensor will answer. -/
def Deaf (f : State → State) : Prop := ∀ ds n s, f (withSensor ds n s) = withSensor ds n (f s)

/-- A bus draw leaves the sensor's answers alone. -/
theorem drawBus_withSensor (ds : List SensorDraw) (n : Nat) (s : State) :
    (withSensor ds n s).env.drawBus = (s.env.drawBus.1, { s.env.drawBus.2 with sensor := ds, sensorFree := n }) := by
  unfold withSensor Env.drawBus
  cases s.env.bus <;> rfl

theorem openFrame_deaf (r v : Byte) : Deaf (openFrame r v) := fun ds n s => by
  rw [openFrame, drawBus_withSensor]
  rfl

theorem sendFrame_deaf (r v : Byte) (latch : Memory → Memory) : Deaf (sendFrame r v latch) := fun ds n s => by
  have hdraw : failsAt (withSensor ds n s).cfg (withSensor ds n s).env.drawBus.1 = failsAt s.cfg s.env.drawBus.1 := by
    rw [drawBus_withSensor]
    rfl
  rw [sendFrame, hdraw, openFrame_deaf, sendFrame]
  cases failsAt s.cfg s.env.drawBus.1 <;> rfl

theorem writeRegister_deaf (r v : Byte) : Deaf (writeRegister r v) := fun ds n s => sendFrame_deaf r v (chipLatch s.cfg r v) ds n s

theorem moveOn_deaf (p : Pos) : Deaf (moveOn p) := fun ds n s => by
  unfold moveOn
  split_ifs with hl hr hr
  · rfl
  · exact absurd hl hr
  · exact absurd hr hl
  · cases p <;> rfl

theorem complete_deaf {f : State → State} {s u : State} (hf : Deaf f) (hr : Running s) (h : complete f s = .next u)
    (ds : List SensorDraw) (n : Nat) : complete f (withSensor ds n s) = .next (withSensor ds n u) := by
  rw [complete_running f (withSensor ds n s) hr, hf, complete_running_cases hr h]

/-- The operation of every position but `SAMPLE`. -/
theorem exec_fetch_deaf {s u : State} {i : Instr} (hr : Running s) (hp : s.pos ≠ .sample) (hi : fetch s = some i)
    (hx : exec i s = .next u) (ds : List SensorDraw) (n : Nat) : exec i (withSensor ds n s) = .next (withSensor ds n u) := by
  by_cases hframe : s.pos.isFrame = true
  · rw [fetch_frame hframe] at hi
    cases hi
    rw [exec_decodeFrame] at hx
    exact (exec_decodeFrame s.w (withSensor ds n s)).trans (complete_deaf (writeRegister_deaf _ _) hr hx ds n)
  cases hpos : s.pos <;> simp only [fetch, hpos, Option.some.injEq, reduceCtorEq] at hi <;> subst hi
  case bInit | bClear | aShow | aClear => exact absurd (by rw [hpos]; rfl) hframe
  case sample => exact absurd hpos hp
  case bStatus | aIndOn | aStatus | aIndOff | aRestore | tEnd | sleep => exact complete_deaf (fun _ _ _ => rfl) hr hx ds n
  case aDwell k =>
    have hindex : ¬ (s.cfg.wf = true ∧ ¬ k < s.cfg.nSteps) := fun hout => by
      rw [exec, execDwell, if_pos hout] at hx
      cases hx
    exact (if_neg hindex).trans (complete_deaf (f := dwellOp k) (fun _ _ _ => rfl) hr (execDwell_cases hx) ds n)

/-- Settles O40: the draws decide no case of the step, and but for `SAMPLE` every case is deaf. -/
theorem deafOutsideSample : Obligations.DeafOutsideSample := by
  intro s t ds n hp h
  obtain ⟨hc, hstep⟩ := step_cases h
  rcases hstep with ⟨hr, rfl⟩ | ⟨hr, hf, rfl⟩ | ⟨hr, hi, rfl⟩ | ⟨hr, i, u, hi, hx, rfl⟩
  · exact step_rst (s := withSensor ds n s) hc hr
  · exact step_halted hc hr hf
  · exact (step_noOperation (s := withSensor ds n s) hr hi).trans (congrArg _ (moveOn_deaf s.pos ds n s))
  · rw [step_operation (s := withSensor ds n s) hr hi, exec_fetch_deaf hr.1 hp hi hx ds n]
    exact congrArg _ (moveOn_deaf s.pos ds n u)

end Sys2Proof.Machine
end

/-! ### A ready block's step -/

section
namespace Sys2Proof.Machine

theorem Ready.running {s : State} (h : Ready s) : Running s := h.1

theorem Ready.cfg_wf {s : State} (h : Ready s) : s.cfg.wf = true := h.running.1

theorem Ready.fault_zero {s : State} (h : Ready s) : s.fault = 0 := h.running.2

theorem Ready.rst_low {s : State} (h : Ready s) : s.rst = 0 := h.2.1

theorem Ready.ph_zero {s : State} (h : Ready s) : s.ph = 0 := h.2.2.1

theorem Ready.pos_wf {s : State} (h : Ready s) : s.pos.wf s.cfg = true := h.2.2.2

/-- The operation of position `p` (43_loop.md R154): `B_START` has none, and a frame position sends the frame in `W` (log 7). -/
def rowOp : Pos → State → State
  | .bStart => id
  | .bStatus => statusOp .monitoring
  | .sample => sampleOp
  | .aIndOn => indSetOp
  | .aStatus => statusOp .alert
  | .aDwell n => dwellOp n
  | .aIndOff => indClrOp
  | .aRestore => statusOp .monitoring
  | .tEnd => tendOp
  | .sleep => sleepOp
  | .bInit _ | .bClear _ | .aShow _ _ | .aClear _ => fun s => writeRegister (frameReg s.w) (frameVal s.w) s

theorem rowOp_frame {p : Pos} (hp : p.isFrame = true) (s : State) : rowOp p s = writeRegister (frameReg s.w) (frameVal s.w) s := by
  cases p with
  | bInit | bClear | aShow | aClear => rfl
  | _ => cases hp

theorem moveOn_halted (p : Pos) {u : State} (h : u.fault = 1) : moveOn p u = u := if_pos h

/-- `fetch` names the operation of each position, and `DWELL` of a position's own step is in range. -/
theorem exec_fetch {s : State} {i : Instr} (h : Ready s) (hi : fetch s = some i) : exec i s = .next (rowOp s.pos s) := by
  obtain ⟨hr, -, -, hwf⟩ := h
  by_cases hframe : s.pos.isFrame = true
  · rw [fetch_frame hframe] at hi
    cases hi
    rw [exec_decodeFrame, complete_running _ s hr, rowOp_frame hframe]
  cases hp : s.pos <;> simp only [fetch, hp, Option.some.injEq, reduceCtorEq] at hi <;> subst hi
  case bInit | bClear | aShow | aClear => exact absurd (by rw [hp]; rfl) hframe
  case aDwell n =>
    rw [hp] at hwf
    exact (dwellCompletes s n hr).1 (of_decide_eq_true hwf)
  all_goals exact complete_running _ s hr

/-- What a step of a ready block does: the operation of its position, then the move on. -/
theorem step_ready {s : State} (h : Ready s) : step s = .next (moveOn s.pos (rowOp s.pos s)) := by
  cases hi : fetch s with
  | none =>
    have hp : s.pos = .bStart := by cases hp : s.pos <;> simp_all [fetch]
    rw [step_noOperation h hi, hp]
    rfl
  | some i =>
    rw [step_operation h hi, exec_fetch h hi]
    rfl

/-- Settles O37: `step` looks at nothing but `fetch` in a ready block, and a placed frame is in `W` at a frame position. -/
theorem stepRunsTheOperation : Obligations.StepRunsTheOperation := by
  refine ⟨fun s i h hi => step_operation h hi, fun s h hp => ?start, fun s hp => fetch_frame hp, fun s n w h => ?placed⟩
  case start =>
    have hstep : step s = .next (enter (.bInit 0) s) := by
      rw [step_ready h, hp]
      exact congrArg _ (if_neg ((fault_ne_one s).2 h.fault_zero))
    rw [hstep, enter, ← h.ph_zero]
    rfl
  case placed =>
    obtain ⟨hr, hrst, -, hwf⟩ := h
    have hframe : (s.withFetchWord n w).pos.isFrame = true := by
      simp only [State.withFetchWord, placeFrame]
      split_ifs with hp
      exacts [hp, rfl]
    have hpos : (s.withFetchWord n w).pos.wf s.cfg = true := by
      simp only [State.withFetchWord, placeFrame]
      split_ifs
      exacts [hwf, rfl]
    exact ⟨⟨hr, hrst, rfl, hpos⟩, fetch_frame hframe⟩

/-- Settles O27: `sleepOp` is its event and the write of POS. -/
theorem sleepCompletes : Obligations.SleepCompletes := complete_running sleepOp

end Sys2Proof.Machine
end

/-! ### A position at the cycle level -/

section
namespace Sys2Proof.Machine

/-- The last edge of a position that does not fail in its last cycle. -/
theorem clockEdge_last {s : State} {p : Pins} (hf : s.fault = 0) (hr : p.rst = 0)
    (hcut : ¬ (s.pos.isFrame = true ∧ s.ph < csEnd s.cfg ∧ p.busErr = 1)) (hread : ¬ (s.pos = .sample ∧ p.sensorErr = 1))
    (hn : ¬ s.ph < len s.cfg s.pos - 1) :
    clockEdge p s = arrive (successor s.cfg (edge p.sensorIn s.prev) s.pos) (lastEdgeEffect p s) := by
  rw [clockEdge, if_neg (by simp [hr]), if_neg ((fault_ne_one s).2 hf), if_neg hcut, if_neg hread, if_neg hn]

theorem crun_halted {s : State} (hc : s.cfg.wf = true) (hf : s.fault = 1) {ps : List Pins} (hr : ∀ p ∈ ps, p.rst = 0) :
    crun ps s = .next s := by
  induction ps with
  | nil => rfl
  | cons p ps ih =>
    obtain ⟨hp, hps⟩ := List.forall_mem_cons.1 hr
    rw [crun, cstep_next p s hc, clockEdge_halted hf hp]
    exact ih hps

/-- Outside frames and `SAMPLE` a position only counts PH before its last edge. -/
theorem crun_wait {s : State} (hs : Running s) (hp : s.pos.isFrame = false) (hsample : s.pos ≠ .sample) {ps : List Pins}
    (hr : ∀ p ∈ ps, p.rst = 0) (hn : s.ph + ps.length < len s.cfg s.pos) :
    crun ps s = .next { s with ph := s.ph + ps.length } := by
  induction ps generalizing s with
  | nil => rfl
  | cons p ps ih =>
    obtain ⟨hp0, hps⟩ := List.forall_mem_cons.1 hr
    rw [List.length_cons] at hn ⊢
    have hedge : clockEdge p s = { s with ph := s.ph + 1 } := by
      have hlast : s.ph < len s.cfg s.pos - 1 := by omega
      rw [clockEdge, if_neg (by simp [hp0]), if_neg ((fault_ne_one s).2 hs.2), if_neg (by simp [hp]), if_neg (by simp [hsample]),
        if_pos hlast, countOn_noFrame hp]
    rw [crun, cstep_next p s hs.1, hedge, show s.ph + (ps.length + 1) = s.ph + 1 + ps.length by omega]
    exact ih (s := { s with ph := s.ph + 1 }) hs hp hsample hps (show s.ph + 1 + ps.length < len s.cfg s.pos by omega)

/-- A run through a frame position that is cut in its cycle `k`, from its cycle `m`: the bytes are withdrawn and the halt holds. -/
theorem crun_cutFrame {s : State} {k : Nat} (hs : Running s) (hp : s.pos.isFrame = true) (hk : k < csEnd s.cfg) {ps : List Pins} {m : Nat}
    (hm : m ≤ k) (hn : k < m + ps.length) (hq : FirstErrAt k m ps) :
    crun ps (inFrameCycle s m) = .next (raiseBus k (withdrawBytes (inFrameCycle s k))) := by
  induction ps generalizing m with
  | nil =>
    rw [List.length_nil] at hn
    omega
  | cons p ps ih =>
    obtain ⟨hr, hquiet, herr⟩ := hq.head
    rw [List.length_cons] at hn
    rw [crun, cstep_next p (inFrameCycle s m) hs.1]
    rcases Nat.lt_or_eq_of_le hm with hlt | rfl
    · have hwindow : csEnd s.cfg < lenFrame s.cfg := csEnd_lt_lenFrame hs.1
      have hlast : m + 1 < lenFrame s.cfg := by omega
      rw [clockEdge_frame (s := inFrameCycle s m) hs.2 hp hr (fun _ => hquiet hlt) hlast, countOn_inFrameCycle hs.1 hp]
      exact ih hlt (by omega) hq.tail
    · rw [clockEdge_cut (s := inFrameCycle s m) hs.2 hp hk hr (herr rfl)]
      exact crun_halted (s := raiseBus m (withdrawBytes (inFrameCycle s m))) hs.1 rfl hq.tail.rst

end Sys2Proof.Machine
end

/-! ### The circuit and the event level -/

section
namespace Sys2Proof.Machine

theorem cycleView_running {s : State} (hf : s.fault = 0) : cycleView s = { s with trace := s.trace ++ entryEvents s.pos } :=
  if_neg ((fault_ne_one s).2 hf)

/-- Before the end of the chip-select window the frame's events are bytes. -/
theorem frameEventsUpTo_window {c : Cfg} (w : FrameWord) {n : Nat} (hn : n < csEnd c) :
    ∃ bs : List Byte, frameEventsUpTo c w n = bs.map .tx := by
  refine ⟨(if n < byteEnd c 1 then [] else [frameReg w]) ++ (if n < byteEnd c 2 then [] else [frameVal w]), ?_⟩
  rw [frameEventsUpTo, if_pos hn]
  split_ifs <;> rfl

theorem frameEventsUpTo_gap {c : Cfg} (hc : c.wf = true) (w : FrameWord) {n : Nat} (hn : csEnd c ≤ n) :
    frameEventsUpTo c w n = [.tx (frameReg w), .tx (frameVal w), .cs 1] := by
  obtain ⟨-, h12, h2e⟩ := byteEnd_order hc
  rw [frameEventsUpTo, if_neg (by omega), if_neg (by omega), if_neg (by omega)]
  rfl

theorem entryEvents_frame {p : Pos} (hp : p.isFrame = true) : entryEvents p = [.cs 0] := by
  cases p with
  | bInit | bClear | aShow | aClear => rfl
  | _ => cases hp

end Sys2Proof.Machine
end

/-! ### The circuit refines the event level -/

section
namespace Sys2Proof.Machine

/-- The run of the circuit through the position of `s` under the pins `ps` gives what the event level's next state `t` is. -/
def Refined (ps : List Pins) (s t : State) : Prop := crun ps (cycleView s) = .next (cycleView { t with env := s.env })

/-! The last edge of a position. -/

/-- A position has a last cycle. -/
theorem exists_lastPins {c : Cfg} (hc : c.wf = true) {p : Pos} {ps : List Pins} (hlen : ps.length = len c p) :
    ∃ qs q, ps = qs ++ [q] ∧ qs.length = len c p - 1 := by
  have hpos : 1 ≤ len c p := len_pos hc p
  obtain ⟨qs, q, rfl⟩ := (List.eq_nil_or_concat ps).resolve_left (by rintro rfl; simp at hlen; omega)
  refine ⟨qs, q, List.concat_eq_append, ?_⟩
  rw [List.length_concat] at hlen
  omega

theorem crun_concat {qs : List Pins} {q : Pins} {s u : State} (h : crun qs s = .next u) (hc : u.cfg.wf = true) :
    crun (qs ++ [q]) s = .next (clockEdge q u) := by
  rw [crun_append, h, onNext, crun, cstep_next q u hc]
  rfl

/-- The effect of a last edge does not look at PH or the draws, and leaves both. -/
theorem lastEdgeEffect_ph_env (q : Pins) (s : State) (n : Nat) :
    lastEdgeEffect q { s with ph := n } = { lastEdgeEffect q s with ph := n, env := s.env } := by
  obtain ⟨cfg, prev, cur, ind, mstate, w, pos, ph⟩ := s
  cases pos <;> rfl

theorem lastEdgeEffect_fault (q : Pins) (s : State) : (lastEdgeEffect q s).fault = s.fault := (rowEffect_lastEdgeEffect q s).fault

theorem cycleView_withEnv_enter (p : Pos) {u : State} (hf : u.fault = 0) (e : Env) :
    cycleView { enter p u with env := e } = arrive p { u with env := e } :=
  cycleView_running (s := { enter p u with env := e }) hf

/-- A position that does not fail: its last edge, from its last cycle, against the event level's operation and move on. -/
theorem refined_of_lastCycle {s : State} {qs : List Pins} {q : Pins} {d : Memory} {es : List Event} (hs : Running s) (hr : q.rst = 0)
    (hread : s.pos = .sample → q.sensorErr ≠ 1)
    (hrun : crun qs (cycleView s) = .next { s with ph := len s.cfg s.pos - 1, drv := d, trace := es }) (e : Env) :
    Refined (qs ++ [q]) s
      (enter (successor s.cfg (edge q.sensorIn s.prev) s.pos) { lastEdgeEffect q { s with drv := d, trace := es } with env := e }) := by
  have hwindow : s.pos.isFrame = true → csEnd s.cfg ≤ len s.cfg s.pos - 1 := fun hp => by
    have hgap : csEnd s.cfg < lenFrame s.cfg := csEnd_lt_lenFrame hs.1
    rw [len_of_isFrame _ hp]
    omega
  have hlast := clockEdge_last (s := { s with ph := len s.cfg s.pos - 1, drv := d, trace := es }) hs.2 hr
    (fun hcut => absurd hcut.2.1 (Nat.not_lt.2 (hwindow hcut.1))) (fun hfail => hread hfail.1 hfail.2) (Nat.lt_irrefl _)
  have hrunning : (lastEdgeEffect q { s with drv := d, trace := es }).fault = 0 := (lastEdgeEffect_fault _ _).trans hs.2
  rw [Refined, crun_concat hrun hs.1, hlast, lastEdgeEffect_ph_env q { s with drv := d, trace := es }]
  exact congrArg _ (cycleView_withEnv_enter _ (u := { lastEdgeEffect q { s with drv := d, trace := es } with env := e }) hrunning _).symm

/-! Frame positions. -/

/-- A frame position starts in its cycle 0 with `CS(0)` on the trace. -/
theorem cycleView_frame {s : State} (h : Ready s) (hp : s.pos.isFrame = true) : cycleView s = inFrameCycle (emit (.cs 0) s) 0 := by
  rw [inFrameCycle_zero (s := emit (.cs 0) s) h.cfg_wf h.ph_zero, cycleView_running h.fault_zero, entryEvents_frame hp]
  rfl

/-- A cut frame leaves its `CS(0)` alone on the trace, and DRV has not latched. -/
theorem withdrawBytes_inFrameCycle (s : State) {k : Nat} (hk : k < csEnd s.cfg) :
    withdrawBytes (inFrameCycle (emit (.cs 0) s) k) = { emit (.cs 0) s with ph := k } := by
  obtain ⟨bs, hbs⟩ := frameEventsUpTo_window s.w hk
  have hdrv : (inFrameCycle (emit (.cs 0) s) k).drv = s.drv := if_pos hk
  have htrace := withdrawBytes_trace s.trace bs (inFrameCycle (emit (.cs 0) s) k)
    (by simp only [inFrameCycle, emit_trace, emit_cfg, emit_w, hbs])
  rw [withdrawBytes_trace_eq] at htrace
  rw [withdrawBytes, htrace]
  exact congrArg (fun m => { emit (.cs 0) s with ph := k, drv := m }) hdrv

/-- A frame position whose frame is cut in its cycle `k` (40_framer.md R102, R103). -/
theorem refined_cutFrame {s : State} {ps : List Pins} {k : Nat} (h : Ready s) (hp : s.pos.isFrame = true)
    (hlen : ps.length = len s.cfg s.pos) (hr : ∀ p ∈ ps, p.rst = 0) (hpins : failsAt s.cfg (busDrawOf ps) = some k)
    (hdraw : failsAt s.cfg s.env.drawBus.1 = some k) : Refined ps s (moveOn s.pos (rowOp s.pos s)) := by
  have hk : k < csEnd s.cfg := failsAt_lt hdraw
  have hwindow : csEnd s.cfg < lenFrame s.cfg := csEnd_lt_lenFrame h.cfg_wf
  have hstep : moveOn s.pos (rowOp s.pos s) = raiseBus k (openFrame (frameReg s.w) (frameVal s.w) s) := by
    rw [rowOp_frame hp, writeRegister, sendFrame_fail _ _ _ s k hdraw]
    exact moveOn_halted _ rfl
  rw [len_of_isFrame _ hp] at hlen
  rw [Refined, hstep, cycleView_frame h hp, crun_cutFrame (s := emit (.cs 0) s) h.running hp hk (Nat.zero_le k) (by omega)
    (firstErrAt_of_failsAt hr hpins), withdrawBytes_inFrameCycle s hk, openFrame, frameWord_fields]
  rfl

theorem QuietFrom.of_append {c : Cfg} {m : Nat} {ps qs : List Pins} (h : QuietFrom c m (ps ++ qs)) : QuietFrom c m ps :=
  fun n p hp => h n p (by rw [List.getElem?_append_left (List.getElem?_eq_some_iff.1 hp).1, hp])

theorem lastEdgeEffect_frame (p : Pins) {s : State} (hp : s.pos.isFrame = true) : lastEdgeEffect p s = s := by
  cases h : s.pos <;> simp_all [lastEdgeEffect, Pos.isFrame]

theorem ne_sample_of_isFrame {p : Pos} (hp : p.isFrame = true) : p ≠ .sample := by
  rintro rfl
  cases hp

/-- After the chip-select window the frame is whole (40_framer.md R105). -/
theorem inFrameCycle_gap {s : State} (hc : s.cfg.wf = true) {n : Nat} (hn : csEnd s.cfg ≤ n) :
    inFrameCycle (emit (.cs 0) s) n = { s with ph := n, drv := latchWord s, trace := s.trace ++ frameEvents [s.w] } := by
  have hdrv : (inFrameCycle (emit (.cs 0) s) n).drv = latchWord s := if_neg (Nat.not_lt.2 hn)
  have htrace : (inFrameCycle (emit (.cs 0) s) n).trace = s.trace ++ frameEvents [s.w] := by
    simp only [inFrameCycle, emit_trace, emit_cfg, emit_w, frameEventsUpTo_gap hc s.w hn, List.append_assoc]
    rfl
  rw [← hdrv, ← htrace]
  rfl

/-- A frame position whose frame is whole (40_framer.md R101, R105). -/
theorem refined_wholeFrame {s : State} {ps : List Pins} (h : Ready s) (hp : s.pos.isFrame = true)
    (hlen : ps.length = len s.cfg s.pos) (hr : ∀ p ∈ ps, p.rst = 0) (hpins : failsAt s.cfg (busDrawOf ps) = none)
    (hdraw : failsAt s.cfg s.env.drawBus.1 = none) : Refined ps s (moveOn s.pos (rowOp s.pos s)) := by
  obtain ⟨qs, q, rfl, hqs⟩ := exists_lastPins h.cfg_wf hlen
  have hwindow : csEnd s.cfg < lenFrame s.cfg := csEnd_lt_lenFrame h.cfg_wf
  have hne : s.pos ≠ .sample := ne_sample_of_isFrame hp
  have hcycles : qs.length = lenFrame s.cfg - 1 := by rw [hqs, len_of_isFrame _ hp]
  have hrun : crun qs (cycleView s) =
      .next { s with ph := len s.cfg s.pos - 1, drv := latchWord s, trace := s.trace ++ frameEvents [s.w] } := by
    rw [cycleView_frame h hp, crun_inFrameCycle (s := emit (.cs 0) s) h.running hp qs (quietFrom_zero hr hpins).of_append
      (show 0 + qs.length < lenFrame s.cfg by omega), Nat.zero_add, inFrameCycle_gap h.cfg_wf (by omega), hqs]
  have hstep : moveOn s.pos (rowOp s.pos s) = enter (successor s.cfg (edge q.sensorIn s.prev) s.pos)
      { s with drv := latchWord s, trace := s.trace ++ frameEvents [s.w], env := s.env.drawBus.2 } := by
    rw [rowOp_frame hp, writeRegister, sendFrame_ok _ _ _ s hdraw, successor_edge _ (edge _ _) hne, sentFrame, frameWord_fields]
    exact moveOn_frame hp h.fault_zero
  have href := refined_of_lastCycle h.running (hr q (by simp)) (fun hsample => absurd hsample hne) hrun s.env.drawBus.2
  rwa [lastEdgeEffect_frame q (s := { s with drv := latchWord s, trace := s.trace ++ frameEvents [s.w] }) hp, ← hstep] at href

/-! Positions without a frame. -/

/-- Outside frames the operation and the move on are the last edge's, after the entry event. -/
theorem moveOn_rowOp_noFrame {s : State} (h : Ready s) (hp : s.pos.isFrame = false) (hne : s.pos ≠ .sample) (q : Pins) :
    moveOn s.pos (rowOp s.pos s) =
      enter (successor s.cfg (edge q.sensorIn s.prev) s.pos) (lastEdgeEffect q { s with trace := s.trace ++ entryEvents s.pos }) := by
  have hph : s.ph = 0 := h.ph_zero
  have hf : s.fault = 0 := h.fault_zero
  rw [successor_edge _ _ hne]
  obtain ⟨cfg, prev, cur, ind, mstate, w, pos, ph, fault⟩ := s
  obtain rfl : ph = 0 := hph
  obtain rfl : fault = 0 := hf
  cases pos with
  | bInit | bClear | aShow | aClear => cases hp
  | sample => exact absurd rfl hne
  | aDwell | sleep => rfl
  | _ => simp only [entryEvents, List.append_nil]; rfl

theorem refined_noFrame {s : State} {ps : List Pins} (h : Ready s) (hp : s.pos.isFrame = false) (hne : s.pos ≠ .sample)
    (hlen : ps.length = len s.cfg s.pos) (hr : ∀ p ∈ ps, p.rst = 0) : Refined ps s (moveOn s.pos (rowOp s.pos s)) := by
  obtain ⟨qs, q, rfl, hqs⟩ := exists_lastPins h.cfg_wf hlen
  obtain ⟨hrqs, hrq⟩ := List.forall_mem_append.1 hr
  have hpos : 1 ≤ len s.cfg s.pos := len_pos h.cfg_wf s.pos
  have hph : s.ph = 0 := h.ph_zero
  have hrun : crun qs (cycleView s) =
      .next { s with ph := len s.cfg s.pos - 1, drv := s.drv, trace := s.trace ++ entryEvents s.pos } := by
    rw [cycleView_running h.fault_zero, crun_wait (s := { s with trace := s.trace ++ entryEvents s.pos }) h.running hp hne hrqs
      (show s.ph + qs.length < len s.cfg s.pos by omega), hph, hqs, Nat.zero_add]
  rw [moveOn_rowOp_noFrame h hp hne q]
  exact refined_of_lastCycle h.running (hrq q List.mem_cons_self) (fun hsample => absurd hsample hne) hrun s.env

/-- A sensor answer is a failure or a value. -/
theorem sensorDraw_cases (d : SensorDraw) : d.err = 1 ∨ d = ⟨0, d.val⟩ := by
  obtain ⟨err, v⟩ := d
  have herr : err = 0 ∨ err = 1 := by
    revert err
    decide
  rcases herr with rfl | rfl
  exacts [.inr rfl, .inl rfl]

/-- A read that answers at `SAMPLE`: its value is the pin's. -/
theorem moveOn_rowOp_sample {s : State} (h : Ready s) (hp : s.pos = .sample) {q : Pins} (hread : s.env.drawSensor.1 = ⟨0, q.sensorIn⟩) :
    moveOn s.pos (rowOp s.pos s) =
      enter (successor s.cfg (edge q.sensorIn s.prev) s.pos) { lastEdgeEffect q s with env := s.env.drawSensor.2 } := by
  have hword : word s.cfg (sampleTarget (edge q.sensorIn s.prev)) = none := by
    cases edge q.sensorIn s.prev <;> rfl
  simp only [hp, rowOp, moveOn_sample, sampleOp_ok hread, successor, lastEdgeEffect, takeSample_ok, enter, hword, Option.getD_none,
    ← h.ph_zero]

theorem refined_sample {s : State} {ps : List Pins} (h : Ready s) (hp : s.pos = .sample)
    (hlen : ps.length = len s.cfg s.pos) (hr : ∀ p ∈ ps, p.rst = 0) (hpins : ∀ p ∈ ps, sensorDrawOf p = s.env.drawSensor.1) :
    Refined ps s (moveOn s.pos (rowOp s.pos s)) := by
  obtain ⟨q, rfl⟩ := List.length_eq_one_iff.1 (show ps.length = 1 by rw [hlen, hp]; rfl)
  have hrq : q.rst = 0 := hr q List.mem_cons_self
  have hdraw : sensorDrawOf q = s.env.drawSensor.1 := hpins q List.mem_cons_self
  have hview : cycleView s = s := by rw [cycleView_running h.fault_zero, hp, entryEvents, List.append_nil, ← hp]
  rcases sensorDraw_cases (sensorDrawOf q) with herr | hread
  · have hedge : clockEdge q s = raise .sensor s := by
      rw [clockEdge, if_neg (by simp [hrq]), if_neg ((fault_ne_one s).2 h.fault_zero), if_neg (by simp [hp, Pos.isFrame]),
        if_pos ⟨hp, herr⟩]
    have hstep : moveOn s.pos (rowOp s.pos s) = sampleOp s := by
      rw [hp, moveOn_sample]
      rfl
    rw [Refined, hview, crun, cstep_next q s h.cfg_wf, hedge, hstep, sampleOp, takeSample_err _ _ (hdraw ▸ herr)]
    rfl
  · have hok : q.sensorErr = 0 := congrArg SensorDraw.err hread
    have hlast : len s.cfg s.pos - 1 = s.ph := by
      rw [hp, h.ph_zero]
      rfl
    have hrun : crun [] (cycleView s) = .next { s with ph := len s.cfg s.pos - 1, drv := s.drv, trace := s.trace } := by
      rw [hview, crun, hlast]
    rw [moveOn_rowOp_sample h hp (hdraw.symm.trans hread)]
    exact refined_of_lastCycle h.running hrq (fun _ => by simp [hok]) hrun _

/-- Settles O52: a frame is cut or whole in both levels, `SAMPLE` reads what the pins say, and every other position waits for its last
edge. -/
theorem circuitRefinesTheEventLevel : Obligations.CircuitRefinesTheEventLevel := by
  intro s t ps h hst hlen hr hbus hsensor
  obtain rfl : moveOn s.pos (rowOp s.pos s) = t := Host.Outcome.next.inj ((step_ready h).symm.trans hst)
  by_cases hp : s.pos.isFrame = true
  · cases hdraw : failsAt s.cfg s.env.drawBus.1 with
    | some k => exact refined_cutFrame h hp hlen hr ((hbus hp).trans hdraw) hdraw
    | none => exact refined_wholeFrame h hp hlen hr ((hbus hp).trans hdraw) hdraw
  · by_cases hsample : s.pos = .sample
    · exact refined_sample h hsample hlen hr (hsensor hsample)
    · exact refined_noFrame h (Bool.eq_false_iff.2 hp) hsample hlen hr

end Sys2Proof.Machine
end

/-! ### Boot and iteration -/

section
namespace Sys2Proof.Machine

/-- Settles O31: `initOp_ok`, then the request at `B_STATUS`. -/
theorem bootCompletes : Obligations.BootCompletes := by
  intro s hr hok
  obtain ⟨hshutdown, htest, hdecode, hscan, hintensity⟩ := read_initDrv_config hr.1 s.drv
  refine ⟨initDrv s.cfg s.drv, ?_, read_initDrv_row s.cfg s.drv, hshutdown, htest, hdecode, hscan, hintensity,
    fun _ => read_initDrv_other hr.1 s.drv⟩
  have hinit := initOp_ok hr hok
  have hf : (initOp s).fault = 0 := hinit ▸ hr.2
  rw [exec_boot hr, bootOp, inPos_running _ _ _ hf, hinit]
  simp only [enter, statusOp, emit, word, Option.getD_none, bootEvents, List.append_assoc]

/-- Settles O30: a tick without an edge or with one, and then the sleep. -/
theorem iterationCompletes : Obligations.IterationCompletes := by
  intro s v hr hidle hread hok
  cases hedge : edge v s.prev with
  | false =>
    refine ⟨_, exec_iter_of_tick hr (tickOp_noEdge hr.2 hidle hread hedge) hr.2, rfl, rfl, rfl, rfl, hidle, hr.2, rfl, rfl, ?_, rfl, rfl,
      rfl, fun _ => ⟨rfl, rfl⟩, nofun⟩
    simp [tickEvents, hedge]
  | true =>
    refine ⟨_, exec_iter_of_tick hr (tickOp_edge hr hread hedge (hok hedge)) hr.2, rfl, rfl, rfl, rfl, rfl, hr.2, rfl, rfl, ?_, rfl, rfl,
      rfl, nofun, fun _ => ⟨drvShows_shows_clear hr.1 s.cfg.stepPattern _ s.drv, rfl⟩⟩
    simp [tickEvents, hedge]

end Sys2Proof.Machine
end

/-! ### The rows of the position table -/

section
namespace Sys2Proof.Machine

theorem rowOutcome_ready {s : State} (h : Ready s) : RowOutcome s (moveOn s.pos (rowOp s.pos s)) := by
  cases hi : fetch s with
  | none =>
    have hstep := Host.Outcome.next.inj ((step_ready h).symm.trans (step_noOperation h hi))
    exact hstep ▸ rowOutcome_start h hi
  | some i => exact rowOutcome_moveOn h hi (exec_fetch h hi)

theorem tableEvents_of_word {c : Cfg} {p : Pos} {w : FrameWord} (v : Bit) (h : word c p = some w) :
    tableEvents c v p = frameEvents [w] := by
  unfold tableEvents
  rw [h]

/-- An operation that does not fail emits its row's events. -/
theorem rowOp_trace {s : State} (hw : ∀ w, word s.cfg s.pos = some w → s.w = w) (hf : (rowOp s.pos s).fault = 0) :
    (rowOp s.pos s).trace = s.trace ++ tableEvents s.cfg (rowOp s.pos s).cur s.pos := by
  by_cases hp : s.pos.isFrame = true
  · have hword : word s.cfg s.pos = some s.w := by
      rw [word_eq_posWord _ hp, hw _ (word_eq_posWord _ hp)]
    rw [rowOp_frame hp] at hf ⊢
    rw [tableEvents_of_word _ hword]
    rcases sendFrame_cases (frameReg s.w) (frameVal s.w) (chipLatch s.cfg (frameReg s.w) (frameVal s.w)) s with he | ⟨n, -, he⟩
    · rw [writeRegister, he]
      rfl
    · rw [writeRegister, he] at hf
      cases hf
  · obtain ⟨cfg, prev, cur, ind, mstate, w, pos⟩ := s
    cases pos with
    | bInit | bClear | aShow | aClear => exact absurd rfl hp
    | bStart | tEnd => exact (List.append_nil _).symm
    | sample =>
      rw [rowOp, sampleOp] at hf ⊢
      rcases sensorDraw_cases _ with herr | hread
      · rw [takeSample_err _ _ herr] at hf
        cases hf
      · rw [hread]
        rfl
    | _ => rfl

theorem rowOp_rst (p : Pos) (s : State) : (rowOp p s).rst = s.rst := by
  by_cases hp : p.isFrame = true
  · rw [rowOp_frame hp]
    exact congrArg Kept.rst ((writeRegister_kept (fun t => frameReg t.w) fun t => frameVal t.w).eq s)
  · cases p with
    | bInit | bClear | aShow | aClear => exact absurd rfl hp
    | sample => exact congrArg (fun x => x.2.2.2) (sampleOp_keeps.eq s)
    | _ => rfl

theorem moveOn_cur (p : Pos) (u : State) : (moveOn p u).cur = u.cur := by
  unfold moveOn
  split_ifs
  · rfl
  · cases p <;> rfl

theorem moveOn_rst (p : Pos) (u : State) : (moveOn p u).rst = u.rst := by
  unfold moveOn
  split_ifs
  · rfl
  · cases p <;> rfl

/-- Settles O38: a step that does not fail is the `done` outcome of its row, whose sample is CUR of the next state. -/
theorem stepFollowsThePositionTable : Obligations.StepFollowsThePositionTable := by
  intro s t h hw hst hf
  have ht : t = moveOn s.pos (rowOp s.pos s) := Host.Outcome.next.inj (hst.symm.trans (step_ready h))
  have htrace : t.trace = s.trace ++ tableEvents s.cfg t.cur s.pos := by
    rw [ht, moveOn_fault] at hf
    rw [ht, moveOn_trace, moveOn_cur]
    exact rowOp_trace hw hf
  have hrst : t.rst = s.rst := by rw [ht, moveOn_rst, rowOp_rst]
  have ho : RowOutcome s t := ht ▸ rowOutcome_ready h
  cases ho with
  | busFault n frame window next =>
    rw [next] at hf
    cases hf
  | sensorFault sample next =>
    rw [next] at hf
    cases hf
  | done v effect arrived =>
    have hcur : s.pos = .sample → t.cur = v := fun hp => effect.cur.trans (if_pos hp)
    have hnext : successor s.cfg (edge v s.prev) s.pos = successor s.cfg (edge t.cur s.prev) s.pos :=
      successor_congr (p := ⟨0, v, 0, 0⟩) (q := ⟨0, t.cur, 0, 0⟩) fun hp => (hcur hp).symm
    have hfired : s.pos = .sample ∧ edge t.cur s.prev = true ↔ s.pos = .sample ∧ edge v s.prev = true :=
      and_congr_right fun hp => by rw [hcur hp]
    refine ⟨arrived.pos.trans hnext, arrived.ph, fun w hword => arrived.loaded w ?_, htrace, effect.prev,
      fun hp => effect.cur.trans (if_neg hp), effect.ind, ?_, effect.fcode, effect.cfg, hrst⟩
    · rw [effect.cfg, ← arrived.pos, hword]
    · simp only [hfired, effect.mstate]

end Sys2Proof.Machine
end

/-! ### Paths of the sequencer -/

section
namespace Sys2Proof.Machine

/-- A running block enters position `p` and does its operation. -/
def visit (p : Pos) : State → State := whenRunning fun t => rowOp p (enter p t)

theorem visit_halted (p : Pos) {u : State} (h : u.fault = 1) : visit p u = u := whenRunning_halted _ u h

theorem visit_running (p : Pos) {u : State} (h : u.fault = 0) : visit p u = rowOp p (enter p u) := whenRunning_running _ u h

theorem rowOp_keeps (p : Pos) : Keeps (fun s => (s.cfg, s.rst)) (rowOp p) := by
  have hframe : Keeps (fun s => (s.cfg, s.rst)) fun s => writeRegister (frameReg s.w) (frameVal s.w) s :=
    (writeRegister_kept _ _).part fun k => (k.cfg, k.rst)
  cases p with
  | bInit | bClear | aShow | aClear => exact hframe
  | sample => exact ⟨fun s => congrArg (fun x => x.2.2) (sampleOp_keeps.eq s)⟩
  | _ => exact ⟨fun _ => rfl⟩

theorem visit_keeps (p : Pos) : Keeps (fun s => (s.cfg, s.rst)) (visit p) :=
  Keeps.whenRunning (Keeps.comp (rowOp_keeps p) ⟨fun _ => rfl⟩)

theorem visit_cfg (p : Pos) (u : State) : (visit p u).cfg = u.cfg := (Prod.mk.inj ((visit_keeps p).eq u)).1

theorem visit_rst (p : Pos) (u : State) : (visit p u).rst = u.rst := (Prod.mk.inj ((visit_keeps p).eq u)).2

/-- The step of a block that has entered `p`, or has halted before. -/
theorem step_enter {p : Pos} {u : State} (hc : u.cfg.wf = true) (hr : u.rst = 0) (hp : p.wf u.cfg = true) :
    step (whenRunning (enter p) u) = .next (moveOn p (visit p u)) := by
  rcases fault_cases u with hf | hf
  · rw [whenRunning_running _ u hf, visit_running p hf]
    exact step_ready (s := enter p u) ⟨⟨hc, hf⟩, hr, rfl, hp⟩
  · rw [whenRunning_halted _ u hf, visit_halted p hf, moveOn_halted p hf, step_halted hc (by simp [hr]) hf]

/-- `SAMPLE` and the end of `A_RESTORE` apart, what follows the operation of a position is entering its successor. -/
theorem moveOn_visit {p : Pos} (hsample : p ≠ .sample) (hrestore : p ≠ .aRestore) (u : State) :
    moveOn p (visit p u) = whenRunning (enter (successor u.cfg false p)) (visit p u) := by
  rw [← visit_cfg p u]
  cases p with
  | sample => exact absurd rfl hsample
  | aRestore => exact absurd rfl hrestore
  | tEnd | sleep =>
    rcases fault_cases u with hf | hf
    · rw [visit_running _ hf]
      exact (ite_self _).trans (if_neg ((fault_ne_one u).2 hf)).symm
    · rw [visit_halted _ hf, moveOn_halted _ hf, whenRunning_halted _ _ hf]
  | _ => rfl

/-- `q` is where the sequencer goes on after `p`, whatever the operation of `p` did short of a failure. -/
structure Follows (c : Cfg) (p q : Pos) : Prop where
  next    : successor c false p = q
  sample  : p ≠ .sample
  restore : p ≠ .aRestore

theorem run_of_step {M : Host.Core} (n : Nat) {s : M.State} {o : Host.Outcome M.State M.Fault M.Refusal} :
    M.step s = o → M.run (n + 1) s =
      match o with
      | .next t => M.run n t
      | .fault r => .fault r
      | .refused r => .refused r := by
  rintro rfl
  cases h : M.step s <;> rw [Host.Core.run, h]

/-- The host's run of the machine, at the model's own types. -/
def runSteps (n : Nat) (s : State) : Host.Outcome State Fault Refusal := Host.Core.run core n s

theorem runSteps_succ (n : Nat) (s : State) : runSteps (n + 1) s = onNext (step s) (runSteps n) := by
  cases h : step s <;> exact run_of_step (M := core) n h

theorem runSteps_succ_next {n : Nat} {s t : State} (h : step s = .next t) : runSteps (n + 1) s = runSteps n t := by
  rw [runSteps_succ, h]
  rfl

theorem runSteps_add (m n : Nat) (s : State) : runSteps (m + n) s = onNext (runSteps m s) (runSteps n) := by
  induction m generalizing s with
  | zero => rw [Nat.zero_add]; rfl
  | succ m ih =>
    rw [Nat.add_right_comm, runSteps_succ, runSteps_succ]
    cases step s with
    | next t => exact ih t
    | fault r => rfl
    | refused r => rfl

/-- The sequencer's run along a path. -/
theorem runSteps_path {p : Pos} {ps : List Pos} {u : State} (hc : u.cfg.wf = true) (hr : u.rst = 0)
    (hwf : ∀ q ∈ p :: ps, q.wf u.cfg = true)
    (hpath : (p :: ps).IsChain (Follows u.cfg)) :
    runSteps (p :: ps).length (whenRunning (enter p) u) =
      .next (moveOn ((p :: ps).getLastD p) ((p :: ps).foldl (fun t q => visit q t) u)) := by
  induction ps generalizing p u with
  | nil =>
    exact runSteps_succ_next (step_enter hc hr (hwf p List.mem_cons_self))
  | cons q ps ih =>
    obtain ⟨hp, hps⟩ := List.forall_mem_cons.1 hwf
    obtain ⟨hfollows, htail⟩ := List.isChain_cons_cons.1 hpath
    have hcfg : (visit p u).cfg = u.cfg := visit_cfg p u
    rw [List.length_cons, runSteps_succ_next (step_enter hc hr hp), moveOn_visit hfollows.sample hfollows.restore, hfollows.next]
    exact ih (u := visit p u) (hcfg ▸ hc) ((visit_rst p u).trans hr) (hcfg ▸ hps) (hcfg ▸ htail)

end Sys2Proof.Machine
end

/-! ### The paths of boot and of the alert sequence -/

section
namespace Sys2Proof.Machine

/-- The positions of one of the sequencer's loops (43_loop.md R162), and what comes after it. -/
theorem isChain_loop {α : Type} {c : Cfg} {next : α → Option α} {f : α → Pos} {l : List α} {q : Pos} {qs : List Pos}
    (hl : l.IsChain fun a b => next a = some b) (hf : ∀ a b, next a = some b → Follows c (f a) (f b))
    (hlast : ∀ a ∈ l.getLast?, Follows c (f a) q) (hq : (q :: qs).IsChain (Follows c)) :
    (l.map f ++ q :: qs).IsChain (Follows c) := by
  refine ((List.isChain_map f).2 (hl.imp hf)).append hq ?_
  simpa using hlast

theorem isChain_rows {c : Cfg} {f : Fin 8 → Pos} {q : Pos} {qs : List Pos}
    (hf : ∀ a b, nextRow a = some b → Follows c (f a) (f b)) (hlast : Follows c (f 7) q) (hq : (q :: qs).IsChain (Follows c)) :
    (rows.map f ++ q :: qs).IsChain (Follows c) :=
  isChain_loop (next := nextRow) (by decide) hf (fun _ h => Option.some.inj h ▸ hlast) hq

theorem isChain_bootPath (c : Cfg) : (Pos.bStart :: bootPath).IsChain (Follows c) := by
  have hclear : (rows.map Pos.bClear ++ [Pos.bStatus]).IsChain (Follows c) :=
    isChain_rows (fun a b hab => ⟨by simp only [successor, hab], nofun, nofun⟩) ⟨rfl, nofun, nofun⟩ (.singleton _)
  have hinit : (initIndices.map Pos.bInit ++ (rows.map Pos.bClear ++ [Pos.bStatus])).IsChain (Follows c) :=
    isChain_loop (next := nextInit) (by decide) (fun a b hab => ⟨by simp only [successor, hab], nofun, nofun⟩)
      (fun _ h => Option.some.inj h ▸ ⟨rfl, nofun, nofun⟩) hclear
  rw [bootPath, List.append_assoc]
  exact .cons_cons ⟨rfl, nofun, nofun⟩ hinit

/-- The positions of step `m` of the cinematic. -/
def stepPath (m : Nat) : List Pos := rows.map (Pos.aShow m) ++ [.aDwell m]

theorem isChain_stepPath {c : Cfg} {m : Nat} {q : Pos} {qs : List Pos} (hnext : successor c false (.aDwell m) = q)
    (hq : (q :: qs).IsChain (Follows c)) : (stepPath m ++ q :: qs).IsChain (Follows c) := by
  rw [stepPath, List.append_assoc]
  exact isChain_rows (fun a b hab => ⟨by simp only [successor, hab], nofun, nofun⟩) ⟨rfl, nofun, nofun⟩
    (.cons_cons ⟨hnext, nofun, nofun⟩ hq)

/-- The cinematic from step `n` on, and what comes after it. -/
theorem isChain_cinematic {c : Cfg} {qs : List Pos} (hq : (Pos.aIndOff :: qs).IsChain (Follows c)) {k n : Nat} (hn : n + k + 1 = c.nSteps) :
    ((List.range' n (k + 1)).flatMap stepPath ++ Pos.aIndOff :: qs).IsChain (Follows c) := by
  induction k generalizing n with
  | zero =>
    have hlast : successor c false (.aDwell n) = .aIndOff := if_neg (by omega)
    rw [List.range'_one, List.flatMap_singleton]
    exact isChain_stepPath hlast hq
  | succ k ih =>
    have hnext : successor c false (.aDwell n) = .aShow (n + 1) 0 := if_pos (by omega)
    rw [List.range'_succ, List.flatMap_cons, List.append_assoc]
    exact isChain_stepPath hnext (ih (by omega))

theorem alertPath_eq (c : Cfg) :
    alertPath c = .aIndOn :: .aStatus :: ((List.range c.nSteps).flatMap stepPath ++ .aIndOff :: (rows.map Pos.aClear ++ [.aRestore])) := by
  simp only [alertPath, List.append_assoc, List.cons_append, List.nil_append]
  rfl

theorem isChain_alertPath {c : Cfg} (hc : c.wf = true) : (alertPath c).IsChain (Follows c) := by
  have hclear : (rows.map Pos.aClear ++ [Pos.aRestore]).IsChain (Follows c) :=
    isChain_rows (fun a b hab => ⟨by simp only [successor, hab], nofun, nofun⟩) ⟨rfl, nofun, nofun⟩ (.singleton _)
  have hoff : (Pos.aIndOff :: (rows.map Pos.aClear ++ [Pos.aRestore])).IsChain (Follows c) := .cons_cons ⟨rfl, nofun, nofun⟩ hclear
  obtain ⟨k, hk⟩ := Nat.exists_eq_add_of_le' (Cfg.wf_nSteps hc)
  have hcine := isChain_cinematic hoff (k := k) (n := 0) (by omega)
  rw [alertPath_eq, hk, List.range_eq_range']
  exact .cons_cons ⟨rfl, nofun, nofun⟩ (.cons_cons ⟨rfl, nofun, nofun⟩ hcine)

theorem wf_of_mem_bootPath (c : Cfg) : ∀ p ∈ Pos.bStart :: bootPath, p.wf c = true := by
  simp [bootPath, initIndices, rows, Pos.wf]

theorem wf_of_mem_alertPath (c : Cfg) : ∀ p ∈ alertPath c, p.wf c = true := by
  intro p hp
  simp only [alertPath_eq, stepPath, List.mem_append, List.mem_flatMap, List.mem_map, List.mem_cons, List.mem_range, List.not_mem_nil,
    or_false] at hp
  rcases hp with rfl | rfl | ⟨n, hn, ⟨r, -, rfl⟩ | rfl⟩ | rfl | ⟨r, -, rfl⟩ | rfl
  exacts [rfl, rfl, decide_eq_true hn, decide_eq_true hn, rfl, rfl, rfl]

end Sys2Proof.Machine
end

/-! ### The composites are the sequencer's runs -/

section
namespace Sys2Proof.Machine

/-- A frame position's visit sends its word: entering the position loads it in `W`. -/
theorem visit_frame {p : Pos} (hp : p.isFrame = true) : visit p = sendAt p := by
  refine congrArg whenRunning (funext fun t => ?_)
  have hw : (enter p t).w = posWord t.cfg p := by rw [enter_w, word_eq_posWord _ hp, Option.getD_some]
  rw [rowOp_frame hp, hw]
  rfl

theorem visit_alert {p : Pos} (hp : p.isAlert = true) : visit p = runAt p := by
  cases p with
  | aShow | aClear => exact visit_frame rfl
  | aIndOn | aStatus | aDwell | aIndOff | aRestore => rfl
  | _ => cases hp

/-- A ready block at a position without a frame has entered it. -/
theorem whenRunning_enter_ready {p : Pos} {s : State} (h : Ready s) (hp : s.pos = p) (hword : word s.cfg p = none) :
    whenRunning (enter p) s = s := by
  rw [whenRunning_running _ s h.fault_zero, enter, hword, ← hp, ← h.ph_zero]
  rfl

theorem alertOp_eq_visits (s : State) : alertOp s = moveOn .aRestore ((alertPath s.cfg).foldl (fun t p => visit p t) s) := by
  rw [List.foldl_ext _ (fun t p => runAt p t) s fun t p hp => by rw [visit_alert (isAlert_of_mem_alertPath p hp)], alertOp_eq_foldl]
  rfl

theorem runSteps_alertPath {s : State} (h : Ready s) (hp : s.pos = .aIndOn) :
    runSteps (alertPath s.cfg).length s = .next (alertOp s) := by
  obtain ⟨ps, hps⟩ : ∃ ps, alertPath s.cfg = .aIndOn :: ps := ⟨_, alertPath_eq _⟩
  have hlast : (alertPath s.cfg).getLastD .aIndOn = .aRestore := List.getLastD_concat
  have hrun := runSteps_path h.cfg_wf h.rst_low (hps ▸ wf_of_mem_alertPath s.cfg) (hps ▸ isChain_alertPath h.cfg_wf)
  rwa [whenRunning_enter_ready h hp rfl, ← hps, hlast, ← alertOp_eq_visits] at hrun

/-- Settles O47: along the path of the alert sequence the sequencer does the operations of `alert()`. -/
theorem alertIsTheSequencersRun : Obligations.AlertIsTheSequencersRun := fun _ h hp =>
  (runSteps_alertPath h hp).trans (exec_alert h.running).symm

theorem bootOp_eq_visits (s : State) : bootOp s = moveOn .bStatus (bootPath.foldl (fun t p => visit p t) s) := by
  have hframes : initFrames.foldl (fun t p => visit p t) s = initFrames.foldl (fun t p => sendAt p t) s :=
    List.foldl_ext _ _ s fun t p hp => by rw [visit_frame (isFrame_of_mem_initFrames p hp)]
  rw [bootPath_eq, List.foldl_append, hframes, bootOp, initOp_eq_foldl]
  generalize initFrames.foldl (fun t p => sendAt p t) s = u
  rcases fault_cases u with hf | hf
  · rw [whenRunning_running _ u hf, List.foldl_cons, List.foldl_nil, visit_running _ hf]
    exact (inPos_running _ _ (enter .bStatus u) hf).trans (if_neg ((fault_ne_one u).2 hf)).symm
  · rw [whenRunning_halted _ u hf, inPos_halted _ _ u hf, List.foldl_cons, List.foldl_nil, visit_halted _ hf, moveOn_halted _ hf]

/-- Settles O48: `B_START` only moves on, and along the path of boot the sequencer does the operations of `boot()`. -/
theorem bootIsTheSequencersRun : Obligations.BootIsTheSequencersRun := by
  intro s h hp
  have hstart : whenRunning (enter .bStart) s = s := whenRunning_enter_ready h hp rfl
  have hvisit : visit .bStart s = s := hstart
  have hrun := runSteps_path h.cfg_wf h.rst_low (wf_of_mem_bootPath s.cfg) (isChain_bootPath s.cfg)
  rw [hstart, List.foldl_cons, hvisit] at hrun
  rw [exec_boot h.running, bootOp_eq_visits, Nat.add_comm]
  exact hrun

/-! The iteration: `SAMPLE`, the alert sequence on an edge, and the path of `T_END` and `SLEEP`. -/

theorem tickBody_keeps : Keeps (fun s => (s.cfg, s.rst)) tickBody := by
  have hsample : Keeps (fun s => (s.cfg, s.rst)) (inPos .sample sampleOp) := Keeps.inPos ⟨fun _ => rfl⟩ (rowOp_keeps .sample)
  have halert : Keeps (fun s => (s.cfg, s.rst)) alertOp := ⟨fun s => congrArg (fun x => x.2.2) (alertOp_keeps.eq s)⟩
  exact ⟨(Keeps.comp (halert.whenRunning.ite (·.mstate = .alerted)) hsample).eq⟩

/-- The end of a tick and the sleep, from a block that has entered `T_END` or has halted before. -/
theorem runSteps_tickEnd {u : State} (hc : u.cfg.wf = true) (hr : u.rst = 0) (hu : whenRunning (enter .tEnd) u = u) :
    runSteps 2 u = .next (inPos .sleep sleepOp (inPos .tEnd tendOp u)) := by
  have hpath : [Pos.tEnd, Pos.sleep].IsChain (Follows u.cfg) := .cons_cons ⟨rfl, nofun, nofun⟩ (.singleton _)
  have hrun := runSteps_path hc hr (by simp [Pos.wf]) hpath
  rw [hu] at hrun
  exact hrun.trans (congrArg _ (moveOn_sleep _))

theorem step_sample {s : State} (h : Ready s) (hp : s.pos = .sample) : step s = .next (inPos .sample sampleOp s) := by
  have hstep := step_enter h.cfg_wf h.rst_low (hp ▸ h.pos_wf)
  rwa [whenRunning_enter_ready h hp rfl, moveOn_sample] at hstep

/-- The alert sequence ends at `T_END` or has halted. -/
theorem whenRunning_enter_alertOp (s : State) : whenRunning (enter .tEnd) (alertOp s) = alertOp s := by
  rw [alertOp_eq_foldl]
  generalize (alertPath s.cfg).foldl (fun t p => runAt p t) s = u
  rcases fault_cases u with hf | hf
  · rw [whenRunning_running _ u hf]
    exact whenRunning_running (enter .tEnd) (enter .tEnd (leaveAlert u)) hf
  · rw [whenRunning_halted _ u hf, whenRunning_halted _ u hf]

/-- The steps of the alert sequence in the tick that starts at `s`. -/
def alertSteps (s : State) : Nat :=
  if s.env.drawSensor.1.err = 0 ∧ edge s.env.drawSensor.1.val s.prev = true then (alertPath s.cfg).length else 0

theorem alertSteps_ok {s : State} {v : Bit} (h : s.env.drawSensor.1 = ⟨0, v⟩) :
    alertSteps s = if edge v s.prev then (alertPath s.cfg).length else 0 := by
  simp [alertSteps, h]

theorem alertSteps_err {s : State} (h : s.env.drawSensor.1.err = 1) : alertSteps s = 0 := by
  simp [alertSteps, h]

/-- After a read that answers, the block has entered the edge's way on. -/
theorem ready_sampled {s : State} (h : Ready s) (v : Bit) : Ready (sampled v s) := by
  refine ⟨h.running, h.rst_low, rfl, ?_⟩
  rw [sampled]
  cases edge v s.prev <;> rfl

/-- A tick in IDLE up to its end is the sequencer's run, which then has entered `T_END` or has halted. -/
theorem runSteps_tickBody {s : State} (h : Ready s) (hp : s.pos = .sample) (hidle : s.mstate = .idle) :
    runSteps (1 + alertSteps s) s = .next (tickBody s) ∧ whenRunning (enter .tEnd) (tickBody s) = tickBody s := by
  have hf : s.fault = 0 := h.fault_zero
  rw [Nat.add_comm, runSteps_succ_next (step_sample h hp)]
  rcases sensorDraw_cases s.env.drawSensor.1 with herr | hread
  · have hfail : inPos .sample sampleOp s = raise .sensor { s with pos := .sample, ph := 0, env := s.env.drawSensor.2 } :=
      (inPos_running _ _ s hf).trans (takeSample_err _ _ herr)
    have hstay : (inPos .sample sampleOp s).mstate ≠ .alerted := by simp [hfail, hidle]
    rw [alertSteps_err herr, tickBody, if_neg hstay]
    exact ⟨rfl, whenRunning_halted _ _ (by rw [hfail]; rfl)⟩
  generalize s.env.drawSensor.1.val = v at hread
  have hready : Ready (sampled v s) := ready_sampled h v
  rw [alertSteps_ok hread, inPos_sample_ok hf hread]
  cases hedge : edge v s.prev with
  | false =>
    have hpos : (sampled v s).pos = .tEnd := congrArg sampleTarget hedge
    rw [tickBody_noEdge hf hidle hread hedge]
    exact ⟨rfl, whenRunning_enter_ready hready hpos rfl⟩
  | true =>
    have hpos : (sampled v s).pos = .aIndOn := congrArg sampleTarget hedge
    have hfired : (sampled v s).mstate = .alerted := if_pos hedge
    rw [tickBody, inPos_sample_ok hf hread, if_pos hfired, whenRunning_running _ _ hready.fault_zero]
    exact ⟨runSteps_alertPath hready hpos, whenRunning_enter_alertOp _⟩

/-- Settles O49: the tick up to its end, and then its end and the sleep. -/
theorem iterationIsTheSequencersRun : Obligations.IterationIsTheSequencersRun := by
  intro s h hp hidle
  obtain ⟨hbody, hend⟩ := runSteps_tickBody h hp hidle
  obtain ⟨hcfg, hrst⟩ := Prod.mk.inj (tickBody_keeps.eq s)
  calc runSteps (3 + alertSteps s) s
      = onNext (runSteps (1 + alertSteps s) s) (runSteps 2) := by
        rw [show 3 + alertSteps s = 1 + alertSteps s + 2 by omega, runSteps_add]
    _ = runSteps 2 (tickBody s) := by rw [hbody, onNext]
    _ = .next (inPos .sleep sleepOp (inPos .tEnd tendOp (tickBody s))) := runSteps_tickEnd (hcfg ▸ h.cfg_wf) (hrst.trans h.rst_low) hend
    _ = exec .iter s := (exec_iter h.running).symm

end Sys2Proof.Machine
end

/-! ### Exceptions: the failed read and the halt -/

section
namespace Sys2Proof.Machine

/-- A failed read (42_monitor.md R138): the draw is taken and SensorFault raised, before any register is written. -/
theorem sampleOp_err {s : State} (h : s.env.drawSensor.1.err = 1) :
    sampleOp s = raise .sensor { s with env := s.env.drawSensor.2 } := takeSample_err _ _ h

/-- Settles O22: `sampleOp_err`, with the raise written out. -/
theorem sensorFailureHalts : Obligations.SensorFailureHalts := fun s hr h =>
  (complete_running sampleOp s hr).trans (congrArg _ (sampleOp_err h))

theorem complete_halted (f : State → State) {s : State} (hc : s.cfg.wf = true) (hf : s.fault = 1) : complete f s = .next s := by
  rw [complete_next f s hc, whenRunning_halted f s hf]

/-- A well-formed operand of `SHOW` names a pattern (20_memory.md R41). -/
theorem exists_shownPattern_of_wf {c : Cfg} {o : ShowOperand} (h : o.wf c = true) : ∃ p, c.shownPattern o = some p := by
  cases o with
  | id n => exact ⟨_, List.getElem?_eq_getElem (of_decide_eq_true h)⟩
  | bytes p => exact ⟨p, rfl⟩

/-- With its operand in range, every meaning is `complete` of an operation, which a halted block skips. -/
theorem exec_halted {i : Instr} {s : State} (hi : i.wf s.cfg = true) (hc : s.cfg.wf = true) (hf : s.fault = 1) :
    exec i s = .next s := by
  cases i with
  | showPattern o =>
    obtain ⟨p, hp⟩ := exists_shownPattern_of_wf hi
    exact (execShow_pattern hp).trans (complete_halted (showOp p) hc hf)
  | dwell n =>
    have hn : n < s.cfg.nSteps := of_decide_eq_true hi
    exact (if_neg fun hg => hg.2 hn).trans (complete_halted (dwellOp n) hc hf)
  | _ => exact complete_halted _ hc hf

theorem cstep_halted {s : State} {p : Pins} (hc : s.cfg.wf = true) (hf : s.fault = 1) (hr : p.rst = 0) : cstep p s = .next s := by
  rw [cstep_next p s hc, clockEdge_halted hf hr]

/-- Settles O34: an operation, a step and a clock edge each look at FAULT before they do anything, and only reset comes before that. -/
theorem haltIsQuiescent : Obligations.HaltIsQuiescent := fun _ hc hf =>
  ⟨fun _ hi => exec_halted hi hc hf, fun hr => step_halted hc (by simp [hr]) hf, fun _ hr => cstep_halted hc hf hr⟩

end Sys2Proof.Machine
end

/-! ### Reset from any state -/

section
namespace Sys2Proof.Machine

/-- `rst` comes before FAULT, POS and every other input (70_reset_and_hazards.md R190). -/
theorem clockEdge_rst {s : State} {p : Pins} (hr : p.rst = 1) : clockEdge p s = resetEdge s := if_pos hr

theorem cstep_rst {s : State} {p : Pins} (hc : s.cfg.wf = true) (hr : p.rst = 1) : cstep p s = .next (resetEdge s) := by
  rw [cstep_next p s hc, clockEdge_rst hr]

/-- A frame broken off by reset leaves nothing known of the chip (70_reset_and_hazards.md R192). -/
theorem resetEdge_drv_of_selected {s : State} (hlow : (outputs s).csN = 0) : (resetEdge s).drv = Memory.unknown := by
  rw [resetEdge_drv, if_pos hlow]

/-- Outside a frame reset does not reach the chip (70_reset_and_hazards.md R191). -/
theorem resetEdge_drv_of_deselected {s : State} (hhigh : (outputs s).csN = 1) : (resetEdge s).drv = s.drv := by
  rw [resetEdge_drv, if_neg (by simp [hhigh])]

/-- Settles O35: with `rst` high a step and a clock edge are both `resetEdge`, which asks only chip-select what becomes of DRV. -/
theorem resetFromAnyState : Obligations.ResetFromAnyState := by
  intro s hc hr
  refine ⟨resetEdge s, step_rst hc hr, fun p hp => cstep_rst hc hp, rfl, ?_, resetEdge_drv_of_deselected⟩
  intro hlow a
  rw [resetEdge_drv_of_selected hlow, read_unknown]

end Sys2Proof.Machine
end
